-- ==== Sys2Proof/Word.lean ====
section
/-! DEFINITION. The word types of the core and the two fixed-size banks its machines stand in. -/

namespace Sys2Proof

/-- A command word on port `cmd` (R45). -/
abbrev CmdWord := BitVec 32

/-- A tick value or a deadline, `TICK_BITS` = 64 (R4, R6 (b), R6 (e)). -/
abbrev Tick := BitVec 64

/-- A 16-bit payload, input word or Program mask, `WORD_BITS` = 16 (R4). -/
abbrev Half := BitVec 16

/-- A bank of two: the Buttons, the Clocks, the button pins (`N_BTN` = `N_CLK` = 2, R4). -/
structure Two (α : Type) where
  /-- unit 0 -/
  u0 : α
  /-- unit 1 -/
  u1 : α
deriving DecidableEq, Repr, Inhabited

/-- A bank of four: the OutputChannels (`N_OUT` = 4, R4). -/
structure Four (α : Type) where
  /-- unit 0 -/
  u0 : α
  /-- unit 1 -/
  u1 : α
  /-- unit 2 -/
  u2 : α
  /-- unit 3 -/
  u3 : α
deriving DecidableEq, Repr, Inhabited

end Sys2Proof
end

