-- ==== Sys2Proof/Syntax.lean ====
section
/-! DEFINITION. The eleven commands (R48), one constructor per row of spec/opcode_table.json. -/

namespace Sys2Proof

/-- A command. A unit number is the 8-bit field `idx` and an operand the 16-bit field `imm` of the command
word (R45, R46); a field its row fixes at 0 is no operand. -/
inductive Instr where
  /-- `NOP` (R62) -/
  | nop
  /-- `OSET ch, v` (R86) -/
  | oset (ch : BitVec 8) (v : BitVec 16)
  /-- `OREV ch` (R87) -/
  | orev (ch : BitVec 8)
  /-- `PSEL n` (R110) -/
  | psel (n : BitVec 16)
  /-- `CFREQ c, f` (R77) -/
  | cfreq (c : BitVec 8) (f : BitVec 16)
  /-- `PFREQ f` (R111) -/
  | pfreq (f : BitVec 16)
  /-- `CAUTO c` (R78) -/
  | cauto (c : BitVec 8)
  /-- `CSYNC` (R79) -/
  | csync
  /-- `CSYNCO` (R80) -/
  | csynco
  /-- `PAUTO` (R112) -/
  | pauto
  /-- `IACK` (R96) -/
  | iack
deriving DecidableEq, Repr

end Sys2Proof
end

