-- ==== Sys2Proof/WellFormed.lean ====
section
/-! DEFINITION. Which commands have an encoding: the unit number exists (R48, R49). -/

namespace Sys2Proof

/-- A command is well formed when its unit number names a unit: a channel 0..3, a Clock 0..1 (R48). The
value checks on `imm` belong to the commands themselves, after decoding (R48). -/
def Instr.wf : Instr → Bool
  | .nop => true
  | .oset ch _ => decide (ch.toNat < 4)
  | .orev ch => decide (ch.toNat < 4)
  | .psel _ => true
  | .cfreq c _ => decide (c.toNat < 2)
  | .pfreq _ => true
  | .cauto c => decide (c.toNat < 2)
  | .csync => true
  | .csynco => true
  | .pauto => true
  | .iack => true

end Sys2Proof
end

