-- ==== Sys2Proof/Decode.lean ====
section
/-! DEFINITION. The command word: fields, decoder (total, refusing by name), encoder, and the opcode map
with its masks (R45 to R49). -/

namespace Sys2Proof

/-- `op = cmd[31:24]` (R46). -/
def opField (w : CmdWord) : BitVec 8 := w.extractLsb' 24 8

/-- `idx = cmd[23:16]` (R46). -/
def idxField (w : CmdWord) : BitVec 8 := w.extractLsb' 16 8

/-- `imm = cmd[15:0]` (R46). -/
def immField (w : CmdWord) : BitVec 16 := w.extractLsb' 0 16

/-- Why a word matches no row of the opcode map (R49). -/
inductive DecodeError where
  /-- `op` in `0x0B .. 0xFF` -/
  | unknownOp
  /-- a channel above 3 or a Clock above 1 -/
  | unitOutOfRange
  /-- a non-zero `idx` where the row says 0 -/
  | idxNotZero
  /-- a non-zero `imm` where the row says 0 -/
  | immNotZero
deriving DecidableEq, Repr

/-- A row with a unit number in `0 .. n-1`. -/
def withUnit (n : Nat) (idx : BitVec 8) (r : Except DecodeError Instr) : Except DecodeError Instr :=
  if idx.toNat < n then r else .error .unitOutOfRange

/-- A row whose `idx` is 0. -/
def withZeroIdx (idx : BitVec 8) (r : Except DecodeError Instr) : Except DecodeError Instr :=
  if idx = 0 then r else .error .idxNotZero

/-- A row whose `imm` is 0. -/
def withZeroImm (imm : BitVec 16) (i : Instr) : Except DecodeError Instr :=
  if imm = 0 then .ok i else .error .immNotZero

/-- The command of given field values (R48): the operation code selects the row, and the row's must-be-zero
and range checks follow. -/
def decodeFields (op idx : BitVec 8) (imm : BitVec 16) : Except DecodeError Instr :=
  match op.toNat with
  | 0x00 => withZeroIdx idx (withZeroImm imm .nop)
  | 0x01 => withUnit 4 idx (.ok (.oset idx imm))
  | 0x02 => withUnit 4 idx (withZeroImm imm (.orev idx))
  | 0x03 => withZeroIdx idx (.ok (.psel imm))
  | 0x04 => withUnit 2 idx (.ok (.cfreq idx imm))
  | 0x05 => withZeroIdx idx (.ok (.pfreq imm))
  | 0x06 => withUnit 2 idx (withZeroImm imm (.cauto idx))
  | 0x07 => withZeroIdx idx (withZeroImm imm .csync)
  | 0x08 => withZeroIdx idx (withZeroImm imm .csynco)
  | 0x09 => withZeroIdx idx (withZeroImm imm .pauto)
  | 0x0A => withZeroIdx idx (withZeroImm imm .iack)
  | _ => .error .unknownOp

/-- The decoder: the command a word names, or the reason it names none (R46, R48, R49). -/
def decode (w : CmdWord) : Except DecodeError Instr :=
  decodeFields (opField w) (idxField w) (immField w)

/-- The operation code of a command (R48). -/
def Instr.op : Instr → BitVec 8
  | .nop => 0x00
  | .oset _ _ => 0x01
  | .orev _ => 0x02
  | .psel _ => 0x03
  | .cfreq _ _ => 0x04
  | .pfreq _ => 0x05
  | .cauto _ => 0x06
  | .csync => 0x07
  | .csynco => 0x08
  | .pauto => 0x09
  | .iack => 0x0A

/-- The `idx` field of a command: its unit number, 0 where it addresses no unit (R45). -/
def Instr.idx : Instr → BitVec 8
  | .nop => 0
  | .oset ch _ => ch
  | .orev ch => ch
  | .psel _ => 0
  | .cfreq c _ => c
  | .pfreq _ => 0
  | .cauto c => c
  | .csync => 0
  | .csynco => 0
  | .pauto => 0
  | .iack => 0

/-- The `imm` field of a command: its operand, 0 where it has none (R45). -/
def Instr.imm : Instr → BitVec 16
  | .nop => 0
  | .oset _ v => v
  | .orev _ => 0
  | .psel n => n
  | .cfreq _ f => f
  | .pfreq f => f
  | .cauto _ => 0
  | .csync => 0
  | .csynco => 0
  | .pauto => 0
  | .iack => 0

/-- The encoder: `{op, idx, imm}` (R45; the forms of R53). -/
def encode (i : Instr) : CmdWord := i.op ++ i.idx ++ i.imm

/-- One row of the opcode map: a word is the named command iff `(cmd & mask) = bits` (R48). -/
structure OpcodeRow where
  /-- the mnemonic -/
  mnemonic : String
  /-- the column "mask" -/
  mask : CmdWord
  /-- the column "match" -/
  bits : CmdWord
deriving DecidableEq, Repr

/-- The word belongs to the row (R48). -/
def OpcodeRow.matches (r : OpcodeRow) (w : CmdWord) : Bool := (w &&& r.mask) == r.bits

/-- The row of a command in the opcode map (R48). -/
def Instr.row : Instr → OpcodeRow
  | .nop => ⟨"NOP", 0xFFFFFFFF, 0x00000000⟩
  | .oset _ _ => ⟨"OSET", 0xFFFC0000, 0x01000000⟩
  | .orev _ => ⟨"OREV", 0xFFFCFFFF, 0x02000000⟩
  | .psel _ => ⟨"PSEL", 0xFFFF0000, 0x03000000⟩
  | .cfreq _ _ => ⟨"CFREQ", 0xFFFE0000, 0x04000000⟩
  | .pfreq _ => ⟨"PFREQ", 0xFFFF0000, 0x05000000⟩
  | .cauto _ => ⟨"CAUTO", 0xFFFEFFFF, 0x06000000⟩
  | .csync => ⟨"CSYNC", 0xFFFFFFFF, 0x07000000⟩
  | .csynco => ⟨"CSYNCO", 0xFFFFFFFF, 0x08000000⟩
  | .pauto => ⟨"PAUTO", 0xFFFFFFFF, 0x09000000⟩
  | .iack => ⟨"IACK", 0xFFFFFFFF, 0x0A000000⟩

/-- The opcode map, in the order of R48. -/
def opcodeMap : List OpcodeRow :=
  [Instr.nop, .oset 0 0, .orev 0, .psel 0, .cfreq 0 0, .pfreq 0, .cauto 0, .csync, .csynco, .pauto,
    .iack].map Instr.row

/-- The instruction the decoder reads from the bits `w` of an opcode-table row of `nbits` bits; bits above
`nbits` are 0. A command is one 32-bit word, so a value that needs more bits is no command (R45). -/
def decodeTableWord (nbits w : Nat) : Option Instr :=
  if w % 2 ^ nbits < 2 ^ 32 then
    match decode (BitVec.ofNat 32 (w % 2 ^ nbits)) with
    | .ok i => some i
    | .error _ => none
  else none

end Sys2Proof
end

