-- ==== Sys2Proof/Config.lean ====
section
/-! DEFINITION. The implementation parameters of the core (R4), the input ports of a pass (R23), and the
free values: what the spec leaves OPEN or to the environment. -/

namespace Sys2Proof

/-- One entry `(len, seq0, seq1)` of the Program table (R15). An entry with `len` 0 or above 16 is no
configuration of the core (R123), so it has no value here. The field defaults only show that a legal
entry exists; no definition of the machine uses them. -/
structure ProgEntry where
  /-- `sequence_length`, 8 bits -/
  len : BitVec 8 := 1
  /-- pattern of clock track 0 -/
  seq0 : Half := 0
  /-- pattern of clock track 1 -/
  seq1 : Half := 0
  /-- R123: a length of 0 is structurally invalid -/
  len_pos : 0 < len.toNat := by decide
  /-- R15: the length is at most the width of a mask -/
  len_le : len.toNat ≤ 16 := by decide
deriving DecidableEq, Repr, Inhabited

/-- The parameters of R4, each with its legal range: a parameter set that R123 excludes has no value of
this type. The field defaults only show that a legal configuration exists; they are no values of the
hardware (R4: a model must not assume a value for an OPEN parameter). -/
structure Config where
  /-- `TICK_FREQ`, `1 <= TICK_FREQ < 2^48` (D28a) -/
  tickFreq : BitVec 48 := 1
  /-- `BUTTON_UPDATE_INTERVAL`, `0 <= v < 2^32` (D28b) -/
  buttonUpdateInterval : BitVec 32 := 0
  /-- `OUTPUT_TICK_INTERVAL`, `0 <= v < 2^32` (D28c) -/
  outputTickInterval : BitVec 32 := 0
  /-- `INPUT_TICK_INTERVAL`, `0 <= v < 2^32` (D28d) -/
  inputTickInterval : BitVec 32 := 0
  /-- `MAX_PROGRAMS`, `1 <= v <= 256` (D28e) -/
  maxPrograms : Nat := 1
  /-- entry 0 of `PROGRAM_TABLE`, the sentinel (R38, D29) -/
  sentinel : ProgEntry
  /-- entries `1 ..` of `PROGRAM_TABLE` (D28f) -/
  programs : List ProgEntry := []
  /-- `CLK_FREQ_RESET[0..1]`, `1 <= v <= 65535` (D28g) -/
  clkFreqReset : Two (BitVec 16) := ⟨1, 1⟩
  /-- `PROG_FREQ_RESET`, `1 <= v <= 65535` (D28h) -/
  progFreqReset : BitVec 16 := 1
  /-- R4 -/
  tickFreq_ne : tickFreq ≠ 0 := by decide
  /-- R4: 1 to `MAX_PROGRAMS` entries -/
  table_le : programs.length + 1 ≤ maxPrograms := by decide
  /-- R4, D34 -/
  max_le : maxPrograms ≤ 256 := by decide
  /-- R4 -/
  clkFreqReset0_ne : clkFreqReset.u0 ≠ 0 := by decide
  /-- R4 -/
  clkFreqReset1_ne : clkFreqReset.u1 ≠ 0 := by decide
  /-- R4 -/
  progFreqReset_ne : progFreqReset ≠ 0 := by decide
deriving DecidableEq, Repr, Inhabited

/-- The levels on the input ports at one rising `clk` edge (R23); the inputs of one pass (R60). -/
structure InPorts where
  /-- synchronous reset, active high -/
  rst : Bool
  /-- the 64-bit tick value (R10) -/
  tick : Tick
  /-- the two button pins, high = true -/
  btnIn : Two Bool
  /-- the serial data-in pin -/
  inData : Bool
  /-- true when `cmd` holds a command for this pass -/
  cmdValid : Bool
  /-- the command word -/
  cmd : CmdWord
deriving DecidableEq, Repr, Inhabited

/-- The configuration of the instance that `State.reset` describes: every OPEN parameter (D28a to D28h)
is free, within its legal range. DESIGN CHOICE, safe: notes/assumptions/1.md. -/
opaque Config.platform : Config

/-- `T0` of `State.reset`: the value on the `tick` port at the reset edge (R4, R26), which the environment
chooses. DESIGN CHOICE, safe: notes/assumptions/2.md. -/
opaque Config.initialTick : Tick

/-- The input-port levels the environment presents where a run has not written them down: the `n`-th such
edge sees `Config.environment n`, about which nothing is known. DESIGN CHOICE, safe:
notes/assumptions/3.md. -/
opaque Config.environment : Nat → InPorts

end Sys2Proof
end

