-- ==== Sys2Proof/Machine/Operands.lean ====
section
/-! DEFINITION. Operands and arithmetic: unit numbers, the frequency formulas, deadlines, and the bit-order
helpers of the serial paths (R6, R32 to R34, R46, R47). -/

namespace Sys2Proof.Machine

/-- The unit a command's `idx` names in a bank of `n`, none where there is no such unit (R48, R49). -/
def unitOf (n : Nat) (idx : BitVec 8) : Option (Fin n) :=
  if h : idx.toNat < n then some ⟨idx.toNat, h⟩ else none

/-- A unit of a bank of two. -/
def Two.get {α : Type} (t : Two α) (i : Fin 2) : α :=
  match i with
  | 0 => t.u0
  | 1 => t.u1

/-- Replaces a unit of a bank of two. -/
def Two.set {α : Type} (t : Two α) (i : Fin 2) (a : α) : Two α :=
  match i with
  | 0 => { t with u0 := a }
  | 1 => { t with u1 := a }

/-- A unit of a bank of four. -/
def Four.get {α : Type} (t : Four α) (i : Fin 4) : α :=
  match i with
  | 0 => t.u0
  | 1 => t.u1
  | 2 => t.u2
  | 3 => t.u3

/-- Replaces a unit of a bank of four. -/
def Four.set {α : Type} (t : Four α) (i : Fin 4) (a : α) : Four α :=
  match i with
  | 0 => { t with u0 := a }
  | 1 => { t with u1 := a }
  | 2 => { t with u2 := a }
  | 3 => { t with u3 := a }

/-- The payload pattern a host sends for a signed value: two's complement modulo 2^16 (R47 (a)). -/
def signedPayload (v : Int) : BitVec 16 := BitVec.ofInt 16 v

/-- Ticks per half period of a Clock: `(TICK_FREQ * 10) / (f * 2)`, floor division of the widened operands
(R77, R6 (c); 90_conflicts.md C4). -/
def clockTicks (tickFreq : BitVec 48) (f : BitVec 16) : BitVec 64 :=
  BitVec.ofNat 64 (tickFreq.toNat * 10 / (f.toNat * 2))

/-- Ticks per step of the sequencer: `(TICK_FREQ * 10) / (f * len)`, floor division (R111, R110 (a)). -/
def seqTicks (tickFreq : BitVec 48) (f : BitVec 16) (P : ProgEntry) : BitVec 64 :=
  BitVec.ofNat 64 (tickFreq.toNat * 10 / (f.toNat * P.len.toNat))

/-- The gate of every timed action: `now > next_tick`, strict and unsigned (R8, R6 (e), R147). -/
def deadlinePassed (now nextTick : Tick) : Bool := decide (nextTick < now)

/-- A deadline `v` ticks after `t`, modulo 2^64, for an interval parameter `v` of 32 bits (R6 (b)). -/
def afterInterval (t : Tick) (v : BitVec 32) : Tick := t + v.setWidth 64

/-- Shifts a sample into the debounce register: `{reg[6:0], sample}` (R70 (d), R6 (f)). -/
def shiftSample (reg : BitVec 8) (sample : Bool) : BitVec 8 := reg.extractLsb' 0 7 ++ BitVec.ofBool sample

/-- Appends a sample MSB-first: `{temp_data[14:0], sample}` (R95 (e), R34). -/
def appendSample (t : Half) (sample : Bool) : Half := t.extractLsb' 0 15 ++ BitVec.ofBool sample

/-- Appends a sample LSB-first: `{sample, temp_mirrored[15:1]}` (R95 (e), R34; D16). -/
def appendMirrored (t : Half) (sample : Bool) : Half := BitVec.ofBool sample ++ t.extractLsb' 1 15

/-- The payload bit that a slot carries: bit `slot`, or bit `15 - slot` in reversed order (R33, R85 (d)). -/
def slotBit (data : Half) (reverse : Bool) (slot : Nat) : Bool :=
  data.getLsbD (if reverse then 15 - slot else slot)

/-- The step after `step` in a Program of length `len`: `(step + 1) mod len`, which wraps at `len` and not at
2^8 (R18, R108, R109). -/
def nextStep (step : BitVec 8) (P : ProgEntry) : BitVec 8 :=
  BitVec.ofNat 8 ((step.toNat + 1) % P.len.toNat)

end Sys2Proof.Machine
end

