-- ==== Sys2Proof/Machine/Units.lean ====
section
/-! DEFINITION. The registers of the five machine families (R11 to R14, R16), the enumerations and their
tags (R51), and each unit's reset value (R135). -/

namespace Sys2Proof.Machine

/-- The mode of a Clock (R12). -/
inductive ClockMode where
  | manual
  | auto
deriving DecidableEq, Repr

/-- The state of an OutputChannel (R13). -/
inductive OutState where
  | idle
  | pause
  | dataSet
  | enableSet
deriving DecidableEq, Repr

/-- The state of the InputChannel (R14). -/
inductive InState where
  | idle
  | loadingData
  | serialShiftOff
  | shiftClockOn
deriving DecidableEq, Repr

/-- The mode of the sequencer (R16). Tag 3 is never held and has no constructor (R51). -/
inductive SeqMode where
  | manual
  | oneShot
  | auto
deriving DecidableEq, Repr

/-- The tag of a Clock mode (R51). -/
def clockModeTag : ClockMode → BitVec 1
  | .manual => 0
  | .auto => 1

/-- The tag of an OutputChannel state (R51). -/
def outStateTag : OutState → BitVec 2
  | .idle => 0
  | .pause => 1
  | .dataSet => 2
  | .enableSet => 3

/-- The tag of an InputChannel state (R51). -/
def inStateTag : InState → BitVec 2
  | .idle => 0
  | .loadingData => 1
  | .serialShiftOff => 2
  | .shiftClockOn => 3

/-- The tag of a sequencer mode (R51). -/
def seqModeTag : SeqMode → BitVec 2
  | .manual => 0
  | .oneShot => 1
  | .auto => 2

/-- A Button (R11). -/
structure Button where
  /-- the debounce shift register, bit 0 the newest sample -/
  reg : BitVec 8
  /-- the debounced value -/
  state : Bool
  /-- true only in the pass in which `state` flipped -/
  stateChanged : Bool
  /-- sampling deadline -/
  nextTick : Tick
deriving DecidableEq, Repr

/-- A Clock (R12). Its pin `clk_out` is `state` (R81). -/
structure Clock where
  /-- Manual or Auto -/
  mode : ClockMode
  /-- the line level -/
  state : Bool
  /-- toggle deadline in Auto mode -/
  nextTick : Tick
  /-- ticks per half period -/
  ticksPerStep : BitVec 64
  /-- the configured frequency in tenths of Hz -/
  freq : BitVec 16
deriving DecidableEq, Repr

/-- An OutputChannel with its two pin registers (R13). -/
structure OutputChannel where
  /-- FSM state -/
  st : OutState
  /-- the payload -/
  data : Half
  /-- number of data slots already started, 0..16 -/
  bit : BitVec 5
  /-- true = transmit bit 15 first -/
  reverse : Bool
  /-- true = the flush slot has been entered -/
  last : Bool
  /-- phase deadline -/
  nextTick : Tick
  /-- pin `out_data` -/
  dataPin : Bool
  /-- pin `out_enable` -/
  enablePin : Bool
deriving DecidableEq, Repr

/-- The InputChannel with its three pin registers (R14). -/
structure InputChannel where
  /-- FSM state -/
  st : InState
  /-- last published word, first sample in bit 15 -/
  data : Half
  /-- last published word, first sample in bit 0 -/
  dataMirrored : Half
  /-- word being assembled -/
  tempData : Half
  /-- mirrored word being assembled -/
  tempMirrored : Half
  /-- samples taken in this cycle, 0..15 between passes -/
  bitCount : BitVec 5
  /-- the last published word differed from the one before -/
  dataChanged : Bool
  /-- phase deadline -/
  nextTick : Tick
  /-- pin `in_load` -/
  loadPin : Bool
  /-- pin `in_shift` ("serial" in the source, 90_conflicts.md C5) -/
  shiftPin : Bool
  /-- pin `in_clock` -/
  clockPin : Bool
deriving DecidableEq, Repr

/-- ProgramControl's own registers (R16). -/
structure ProgramControl where
  /-- index of the active Program -/
  curProg : BitVec 8
  /-- sequencer mode -/
  mode : SeqMode
  /-- position in the sequence -/
  step : BitVec 8
  /-- step deadline -/
  nextTick : Tick
  /-- ticks per step -/
  ticksPerStep : BitVec 64
  /-- configured frequency, tenths of Hz -/
  freq : BitVec 16
deriving DecidableEq, Repr

/-- A Button after reset (R135). -/
def buttonReset (t0 : Tick) : Button :=
  { reg := 0x00, state := false, stateChanged := false, nextTick := t0 }

/-- A Clock after reset, with its `CLK_FREQ_RESET` (R135). -/
def clockReset (tickFreq : BitVec 48) (freq : BitVec 16) (t0 : Tick) : Clock :=
  { mode := .manual, state := false, nextTick := t0, ticksPerStep := clockTicks tickFreq freq, freq := freq }

/-- An OutputChannel after reset: Idle, pins low (R135). -/
def outputReset (t0 : Tick) : OutputChannel :=
  { st := .idle, data := 0x0000, bit := 0, reverse := false, last := false, nextTick := t0,
    dataPin := false, enablePin := false }

/-- The InputChannel after reset: Idle, pins low (R135). -/
def inputReset (t0 : Tick) : InputChannel :=
  { st := .idle, data := 0x0000, dataMirrored := 0x0000, tempData := 0x0000, tempMirrored := 0x0000,
    bitCount := 0, dataChanged := false, nextTick := t0, loadPin := false, shiftPin := false,
    clockPin := false }

/-- The sequencer after reset: the sentinel active, Manual (R135). -/
def seqReset (c : Config) (t0 : Tick) : ProgramControl :=
  { curProg := 0, mode := .manual, step := 0, nextTick := t0,
    ticksPerStep := seqTicks c.tickFreq c.progFreqReset c.sentinel, freq := c.progFreqReset }

end Sys2Proof.Machine
end

