-- ==== Sys2Proof/Machine/State.lean ====
section
/-! DEFINITION. The state of the core, the reasons a step can stop, and the state after reset. -/

namespace Sys2Proof.Machine

/-- The state of the core: every register of R11 to R17, the constants of the instance (R4, R15), and the
input ports the environment presents (R23), which are the model's own fields. -/
structure State where
  /-- the parameters of R4, among them the Program table of R15; constant of the instance (R42, D28) -/
  cfg : Config
  /-- the two Buttons (R11) -/
  btn : Two Button
  /-- the two Clocks (R12) -/
  clk : Two Clock
  /-- the four OutputChannels (R13) -/
  out : Four OutputChannel
  /-- the InputChannel (R14) -/
  inp : InputChannel
  /-- ProgramControl (R16) -/
  seq : ProgramControl
  /-- the result of the most recent command: true = executed, false = refused (R17) -/
  cmdOk : Bool
  /-- MODEL's own: the levels on the input ports at the next `clk` edge (R23; notes/assumptions/3.md) -/
  ports : InPorts
  /-- MODEL's own: the levels at the edges after that, as far as they are written down
  (notes/assumptions/3.md) -/
  upcoming : List InPorts
  /-- MODEL's own: index of the next free input value (notes/assumptions/3.md) -/
  envIndex : Nat
deriving DecidableEq, Repr

/-- The core has no fault: no trap, no halted state, and a pin cannot fail (R120, R124, R127). So this type
has no constructor; notes/assumptions/7.md. -/
inductive Fault where
deriving DecidableEq, Repr

/-- The reasons a step of the MODEL stops without a next state. A command the hardware refuses is none of
them: it is a next state with `cmd_ok = 0` (R64). -/
inductive Refusal where
  /-- Raised by an arm of `exec` whose instruction has no meaning yet; safe. No arm is left so. -/
  | notModelled (mnemonic : String)
  /-- Raised by a pass with `rst = 0`, and by PFREQ, from a register combination that no input reaches from
  reset and from which no rule defines behaviour (93_implementation_defined.md I11; `ProgRead` past the
  table, R31); safe. -/
  | unreachableState
deriving DecidableEq, Repr

/-- The state a reset pass leaves (R135), with `t0` the tick value that pass sampled. -/
def State.afterReset (c : Config) (t0 : Tick) (ports : InPorts) (upcoming : List InPorts) (envIndex : Nat) :
    State :=
  { cfg := c
    btn := ⟨buttonReset t0, buttonReset t0⟩
    clk := ⟨clockReset c.tickFreq c.clkFreqReset.u0 t0, clockReset c.tickFreq c.clkFreqReset.u1 t0⟩
    out := ⟨outputReset t0, outputReset t0, outputReset t0, outputReset t0⟩
    inp := inputReset t0
    seq := seqReset c t0
    cmdOk := true
    ports := ports
    upcoming := upcoming
    envIndex := envIndex }

/-- The machine right after reset (R26, R135): the parameters free within their legal ranges
(notes/assumptions/1.md), `T0` free (2.md), and the first input ports free (3.md). -/
def State.reset : State :=
  State.afterReset Config.platform Config.initialTick (Config.environment 0) [] 1

end Sys2Proof.Machine
end

