-- ==== Sys2Proof/Machine/Flags.lean ====
section
/-! DEFINITION. The one-bit flags of R19 and the conditions that set them. -/

namespace Sys2Proof.Machine

/-- The debounced value after a sample left `reg` in the register: all ones gives true, all zeros false, any
other pattern no change (R70 (e)). -/
def debounced (reg : BitVec 8) (old : Bool) : Bool :=
  if reg = 0xFF then true else if reg = 0x00 then false else old

/-- `state_changed`: the debounced value flipped (R11, R70 (e)). -/
def flipped (old new : Bool) : Bool := old != new

/-- A rising edge of a Button in this pass: `state_changed = 1` and `state = 1` (R71). -/
def risingEdge (b : Button) : Bool := b.stateChanged && b.state

/-- A falling edge of a Button in this pass: `state_changed = 1` and `state = 0` (R71). -/
def fallingEdge (b : Button) : Bool := b.stateChanged && !b.state

/-- `data_changed` at a publication: the new word differs from the one before (R95 (f), R144). -/
def wordChanged (new old : Half) : Bool := new != old

end Sys2Proof.Machine
end

