-- ==== Sys2Proof/Machine/ProgramTable.lean ====
section
/-! DEFINITION. The core's one memory, the Program table: `ProgRead` (R31), get_signals (R105), and the
40-bit packing of an entry (R50). -/

namespace Sys2Proof.Machine

/-- `PROGRAM_TABLE`, entry 0 the sentinel (R15, R38). -/
def progTable (c : Config) : List ProgEntry := c.sentinel :: c.programs

/-- `prog_count`, the length of the table (R15). -/
def progCount (c : Config) : Nat := (progTable c).length

/-- `ProgRead(i)`: the whole entry at index `i`. There is no entry at `prog_count` or above, and no value
for one (R31, R38). -/
def progRead (c : Config) (i : Nat) : Option ProgEntry := (progTable c)[i]?

/-- `Signals(P, s)`: bit `len - s - 1` of each pattern, most significant used bit first (R105, R32). -/
def signals (P : ProgEntry) (s : BitVec 8) : Bool × Bool :=
  (P.seq0.getLsbD (P.len.toNat - s.toNat - 1), P.seq1.getLsbD (P.len.toNat - s.toNat - 1))

/-- The 40-bit word `{len, seq0, seq1}` of an entry (R50). -/
def packEntry (P : ProgEntry) : BitVec 40 := P.len ++ P.seq0 ++ P.seq1

/-- The entry of a 40-bit word, none where `len` is not in 1..16 (R50, R123). -/
def unpackEntry (w : BitVec 40) : Option ProgEntry :=
  if h : 0 < (w.extractLsb' 32 8).toNat ∧ (w.extractLsb' 32 8).toNat ≤ 16 then
    some { len := w.extractLsb' 32 8, seq0 := w.extractLsb' 16 16, seq1 := w.extractLsb' 0 16,
           len_pos := h.1, len_le := h.2 }
  else none

end Sys2Proof.Machine
end

