-- ==== Sys2Proof/Machine/Ops.lean ====
section
/-! DEFINITION. The named operations on the state: register writes, the result of a command, the core's one
exception (a refused command, R64), reset (R135), and the environment's next inputs. -/

namespace Sys2Proof.Machine

/-- `now`: the tick value this pass sampled (R7, R8). -/
def State.now (s : State) : Tick := s.ports.tick

/-- Writes Button `i`. -/
def State.setBtn (s : State) (i : Fin 2) (b : Button) : State := { s with btn := Two.set s.btn i b }

/-- Writes Clock `i`. -/
def State.setClk (s : State) (i : Fin 2) (c : Clock) : State := { s with clk := Two.set s.clk i c }

/-- Writes OutputChannel `ch`. -/
def State.setOut (s : State) (ch : Fin 4) (o : OutputChannel) : State :=
  { s with out := Four.set s.out ch o }

/-- Writes the InputChannel. -/
def State.setInp (s : State) (i : InputChannel) : State := { s with inp := i }

/-- Writes the sequencer's registers. -/
def State.setSeq (s : State) (q : ProgramControl) : State := { s with seq := q }

/-- Writes `cmd_ok`. -/
def State.setCmdOk (s : State) (b : Bool) : State := { s with cmdOk := b }

/-- A taken command: `cmd_ok <- 1` (R61). -/
def State.accept (s : State) : State := s.setCmdOk true

/-- REFUSE, the core's only exception: `cmd_ok <- 0` and no other register. It saves nothing, changes no mode
and transfers control nowhere, and there is nothing to return from (R64, R127, R128). -/
def State.refuse (s : State) : State := s.setCmdOk false

/-- The active Program, `ProgRead(seq.cur_prog)` (R31). -/
def State.activeProgram (s : State) : Option ProgEntry := progRead s.cfg s.seq.curProg.toNat

/-- `Reset(now)` (R135). The parameters and the environment's inputs are no registers and stay. -/
def State.resetPass (s : State) : State :=
  State.afterReset s.cfg s.now s.ports s.upcoming s.envIndex

/-- The environment presents its next input levels: the next ones written down, or else free ones
(R10, R23; notes/assumptions/3.md). -/
def State.nextEdge (s : State) : State :=
  match s.upcoming with
  | p :: ps => { s with ports := p, upcoming := ps }
  | [] => { s with ports := Config.environment s.envIndex, envIndex := s.envIndex + 1 }

/-- The registers of an OutputChannel are in a reachable range: `bit` in 0..16, and a data slot left to start
whenever one is due to start (R13, R85; I11). -/
def outputLegal (o : OutputChannel) : Bool :=
  decide (o.bit.toNat ≤ 16) && (o.st != .pause || o.last || decide (o.bit.toNat < 16))

/-- `bit_count` is in 0..15 between passes (R14; I11). -/
def inputLegal (i : InputChannel) : Bool := decide (i.bitCount.toNat < 16)

/-- `cur_prog < prog_count` and `step < len` of the active Program (R16; I11). A step of 0 is below every
length, since a length is at least 1 (R15). -/
def seqLegal (c : Config) (q : ProgramControl) : Bool :=
  match progRead c q.curProg.toNat with
  | some P => q.step == 0 || decide (q.step.toNat < P.len.toNat)
  | none => false

/-- The register combinations from which the rules define behaviour; the others are unreachable (I11). -/
def State.legal (s : State) : Bool :=
  outputLegal s.out.u0 && outputLegal s.out.u1 && outputLegal s.out.u2 && outputLegal s.out.u3 &&
    inputLegal s.inp && seqLegal s.cfg s.seq

end Sys2Proof.Machine
end

