-- ==== Sys2Proof/Machine/Button.lean ====
section
/-! DEFINITION. BTN.UPDATE (41_button.md). No command addresses a Button. -/

namespace Sys2Proof.Machine

/-- BTN.UPDATE on one Button's registers (R70): the flag is cleared in every pass; when the deadline has
passed one sample is taken and the deadline advances from its old value. -/
def buttonUpdate (interval : BitVec 32) (now : Tick) (pin : Bool) (b : Button) : Button :=
  if deadlinePassed now b.nextTick then
    { reg := shiftSample b.reg pin
      state := debounced (shiftSample b.reg pin) b.state
      stateChanged := flipped b.state (debounced (shiftSample b.reg pin) b.state)
      nextTick := afterInterval b.nextTick interval }
  else { b with stateChanged := false }

/-- `ButtonUpdate(i, now)` (R70). -/
def State.updateButton (s : State) (i : Fin 2) : State :=
  s.setBtn i (buttonUpdate s.cfg.buttonUpdateInterval s.now (Two.get s.ports.btnIn i) (Two.get s.btn i))

end Sys2Proof.Machine
end

