-- ==== Sys2Proof/Machine/Clock.lean ====
section
/-! DEFINITION. The Clocks (42_clock.md): CLK.UPDATE, set_pin, and the commands CFREQ, CAUTO, CSYNC,
CSYNCO. -/

namespace Sys2Proof.Machine

/-- CLK.UPDATE on one Clock's registers (R75): Manual copies the button's edges; Auto toggles when the
deadline has passed, and the deadline advances from its old value. -/
def clockUpdate (now : Tick) (b : Button) (c : Clock) : Clock :=
  match c.mode with
  | .manual => if b.stateChanged then { c with state := b.state } else c
  | .auto =>
    if deadlinePassed now c.nextTick then
      { c with state := !c.state, nextTick := c.nextTick + c.ticksPerStep }
    else c

/-- `ClockUpdate(i, now, (s, c))`, with the ButtonState of this pass (R75). -/
def State.updateClock (s : State) (i : Fin 2) : State :=
  s.setClk i (clockUpdate s.now (Two.get s.btn i) (Two.get s.clk i))

/-- `ClockSetPin(i, v)`: the sequencer's write of a line (R76). -/
def State.clockSetPin (s : State) (i : Fin 2) (v : Bool) : State :=
  s.setClk i { Two.get s.clk i with state := v }

/-- CFREQ on one Clock's registers (R77). -/
def clockSetFreq (tickFreq : BitVec 48) (f : BitVec 16) (c : Clock) : Clock :=
  { c with freq := f, ticksPerStep := clockTicks tickFreq f }

/-- The other mode (R78). -/
def toggleClockMode : ClockMode → ClockMode
  | .manual => .auto
  | .auto => .manual

/-- CAUTO on one Clock's registers (R78). -/
def clockToggleAuto (now : Tick) (c : Clock) : Clock :=
  { c with mode := toggleClockMode c.mode, nextTick := now }

/-- Gives clock 1 the line level of clock 0 and a deadline, under the sentinel only (R79, R80). -/
def State.syncClocks (s : State) (deadline : Tick) : State :=
  if s.seq.curProg = 0 then
    s.setClk 1 { Two.get s.clk 1 with state := (Two.get s.clk 0).state, nextTick := deadline }
  else s

/-- CFREQ `c, f` (R77); a frequency of 0 is refused, as is a Clock that does not exist (R49). -/
def execCfreq (c : BitVec 8) (f : BitVec 16) (s : State) : Host.Outcome State Fault Refusal :=
  .next <|
    match unitOf 2 c with
    | some i => if f = 0 then s.refuse else s.accept.setClk i (clockSetFreq s.cfg.tickFreq f (Two.get s.clk i))
    | none => s.refuse

/-- CAUTO `c` (R78); a Clock that does not exist is refused (R49). -/
def execCauto (c : BitVec 8) (s : State) : Host.Outcome State Fault Refusal :=
  .next <|
    match unitOf 2 c with
    | some i => s.accept.setClk i (clockToggleAuto s.now (Two.get s.clk i))
    | none => s.refuse

/-- CSYNC: clock 1 takes clock 0's line level and deadline (R79). -/
def execCsync (s : State) : Host.Outcome State Fault Refusal :=
  .next (s.accept.syncClocks (Two.get s.clk 0).nextTick)

/-- CSYNCO: clock 1 takes clock 0's line level, and its deadline one `ticks_per_step` later (R80). -/
def execCsynco (s : State) : Host.Outcome State Fault Refusal :=
  .next (s.accept.syncClocks ((Two.get s.clk 0).nextTick + (Two.get s.clk 0).ticksPerStep))

end Sys2Proof.Machine
end

