-- ==== Sys2Proof/Machine/Control.lean ====
section
/-! DEFINITION. The command that addresses no machine: NOP (40_pass_and_commands.md). -/

namespace Sys2Proof.Machine

/-- NOP: `cmd_ok <- 1` and nothing else (R62). -/
def execNop (s : State) : Host.Outcome State Fault Refusal := .next s.accept

end Sys2Proof.Machine
end

