-- ==== Sys2Proof/Machine/Input.lean ====
section
/-! DEFINITION. The InputChannel (44_input_channel.md): IN.UPDATE and the command IACK. -/

namespace Sys2Proof.Machine

/-- Takes one sample in SerialShiftOff, the clock pin falling (R95 (e)), and publishes the word at the
sixteenth (R95 (f)). -/
def inputSample (pin : Bool) (i : InputChannel) : InputChannel :=
  if i.bitCount + 1 = 16 then
    { i with
      clockPin := false
      tempData := appendSample i.tempData pin
      tempMirrored := appendMirrored i.tempMirrored pin
      dataChanged := wordChanged (appendSample i.tempData pin) i.data
      data := appendSample i.tempData pin
      dataMirrored := appendMirrored i.tempMirrored pin
      bitCount := 0
      st := .idle }
  else
    { i with
      clockPin := false
      tempData := appendSample i.tempData pin
      tempMirrored := appendMirrored i.tempMirrored pin
      bitCount := i.bitCount + 1
      st := .shiftClockOn }

/-- One gated action of the receive machine, but for the deadline (R95 (c) to (g)). -/
def inputAction (pin : Bool) (i : InputChannel) : InputChannel :=
  match i.st with
  | .idle => { i with loadPin := true, shiftPin := false, clockPin := false, st := .loadingData }
  | .loadingData => { i with loadPin := false, shiftPin := true, st := .serialShiftOff }
  | .serialShiftOff => inputSample pin i
  | .shiftClockOn => { i with clockPin := true, st := .serialShiftOff }

/-- IN.UPDATE (R95): one action when the deadline has passed, and the deadline is re-armed from `now`. -/
def inputUpdate (interval : BitVec 32) (now : Tick) (pin : Bool) (i : InputChannel) : InputChannel :=
  if deadlinePassed now i.nextTick then
    { inputAction pin i with nextTick := afterInterval now interval }
  else i

/-- `InUpdate(now)` (R95). -/
def State.updateInput (s : State) : State :=
  s.setInp (inputUpdate s.cfg.inputTickInterval s.now s.ports.inData s.inp)

/-- IACK: clears `data_changed` (R96). -/
def execIack (s : State) : Host.Outcome State Fault Refusal :=
  .next (s.accept.setInp { s.inp with dataChanged := false })

end Sys2Proof.Machine
end

