-- ==== Sys2Proof/Machine/Output.lean ====
section
/-! DEFINITION. The OutputChannels (43_output_channel.md): OUT.UPDATE and the commands OSET, OREV. -/

namespace Sys2Proof.Machine

/-- One gated action of the transmit machine, but for the deadline (R85 (d), (e)): Pause sets the data pin,
DataSet raises the enable pin, EnableSet lowers it. In the flush slot the slot is forced to 15 and `bit`
stays 16 (90_conflicts.md C2). -/
def outputAction (o : OutputChannel) : OutputChannel :=
  match o.st with
  | .idle => o
  | .pause =>
    { o with
      dataPin := slotBit o.data o.reverse (if o.last then 15 else o.bit.toNat)
      bit := if o.last then o.bit else o.bit + 1
      st := .dataSet }
  | .dataSet => { o with enablePin := true, st := .enableSet }
  | .enableSet =>
    if o.bit.toNat < 16 then { o with enablePin := false, st := .pause }
    else if o.last then { o with enablePin := false, st := .idle }
    else { o with enablePin := false, last := true, st := .pause }

/-- OUT.UPDATE on one channel (R85): an Idle channel does nothing; otherwise one action when the deadline has
passed, and the deadline is re-armed from `now`. -/
def outputUpdate (interval : BitVec 32) (now : Tick) (o : OutputChannel) : OutputChannel :=
  if o.st = .idle then o
  else if deadlinePassed now o.nextTick then
    { outputAction o with nextTick := afterInterval now interval }
  else o

/-- `OutUpdate(ch, now)` (R85). -/
def State.updateOutput (s : State) (ch : Fin 4) : State :=
  s.setOut ch (outputUpdate s.cfg.outputTickInterval s.now (Four.get s.out ch))

/-- Restarts a channel from slot 0, discarding any transmission in flight; the pins keep their levels
(R86, R87, R138). -/
def outputRestart (now : Tick) (o : OutputChannel) : OutputChannel :=
  { o with bit := 0, last := false, st := .pause, nextTick := now }

/-- OSET `ch, v` (R86); a channel that does not exist is refused (R49). -/
def execOset (ch : BitVec 8) (v : BitVec 16) (s : State) : Host.Outcome State Fault Refusal :=
  .next <|
    match unitOf 4 ch with
    | some k => s.accept.setOut k { outputRestart s.now (Four.get s.out k) with data := v }
    | none => s.refuse

/-- OREV `ch` (R87); a channel that does not exist is refused (R49). -/
def execOrev (ch : BitVec 8) (s : State) : Host.Outcome State Fault Refusal :=
  .next <|
    match unitOf 4 ch with
    | some k =>
      s.accept.setOut k
        { outputRestart s.now (Four.get s.out k) with reverse := !(Four.get s.out k).reverse }
    | none => s.refuse

end Sys2Proof.Machine
end

