-- ==== Sys2Proof/Machine/Sequencer.lean ====
section
/-! DEFINITION. The sequencer (45_program_control.md): Push, SEQ.UPDATE's Manual and timed paths, and the
commands PSEL, PFREQ, PAUTO. -/

namespace Sys2Proof.Machine

/-- `Push(P, s)`: the signals of a step go to both Clock lines (R106). -/
def State.push (s : State) (P : ProgEntry) (step : BitVec 8) : State :=
  (s.clockSetPin 0 (signals P step).1).clockSetPin 1 (signals P step).2

/-- Moves to the next step of `P` and pushes its signals (R108, R109). -/
def State.advanceStep (s : State) (P : ProgEntry) : State :=
  (s.setSeq { s.seq with step := nextStep s.seq.step P }).push P (nextStep s.seq.step P)

/-- The first half of the Manual path: a rising edge of button 0 enters OneShot and re-arms the deadline
(R108 (a)). -/
def State.enterOneShot (s : State) : State :=
  if risingEdge (Two.get s.btn 0) then s.setSeq { s.seq with mode := .oneShot, nextTick := s.now } else s

/-- `SeqManual(now, b0, b1)` (R108): both tests are made, button 0 first. -/
def State.seqManual (s : State) (P : ProgEntry) : State :=
  if risingEdge (Two.get s.btn 1) then s.enterOneShot.advanceStep P else s.enterOneShot

/-- The mode after a timed step to `step`: OneShot ends at the wrap to 0 (R109). -/
def modeAfterStep (m : SeqMode) (step : BitVec 8) : SeqMode :=
  match m with
  | .oneShot => if step = 0 then .manual else .oneShot
  | .manual => .manual
  | .auto => .auto

/-- `SeqTimed(now)` (R109): one step when the deadline has passed; the deadline advances from its old value
and the new step's signals are pushed. -/
def State.seqTimed (s : State) (P : ProgEntry) : State :=
  if deadlinePassed s.now s.seq.nextTick then
    (s.setSeq
      { s.seq with
        mode := modeAfterStep s.seq.mode (nextStep s.seq.step P)
        nextTick := s.seq.nextTick + s.seq.ticksPerStep }).advanceStep P
  else s

/-- `SeqUpdate(now, b0, b1)` with `P` the active Program: one dispatch on the mode as it stands on entry
(R107). -/
def State.seqUpdate (s : State) (P : ProgEntry) : State :=
  match s.seq.mode with
  | .manual => s.seqManual P
  | .oneShot => s.seqTimed P
  | .auto => s.seqTimed P

/-- The Clock or sequencer part of a pass (R107): under the sentinel each Clock follows its Button or its
divider; under another Program the sequencer runs and the Clocks are bypassed. The last arm is not reached:
a pass starts only from a legal state, and every command keeps it legal (R16, R31). -/
def State.updateLines (s : State) : State :=
  if s.seq.curProg = 0 then (s.updateClock 0).updateClock 1
  else
    match s.activeProgram with
    | some P => s.seqUpdate P
    | none => s

/-- PSEL `n` (R110): an index at or above `prog_count` is refused. An accepted index is below 256, so the
8-bit register holds it (D34). -/
def execPsel (n : BitVec 16) (s : State) : Host.Outcome State Fault Refusal :=
  .next <|
    match progRead s.cfg n.toNat with
    | some P =>
      s.accept.setSeq
        { s.seq with
          curProg := n.setWidth 8
          step := 0
          nextTick := 0
          mode := .manual
          ticksPerStep := seqTicks s.cfg.tickFreq s.seq.freq P }
    | none => s.refuse

/-- PFREQ `f` (R111): a frequency of 0 is refused. From a state whose `cur_prog` is no index of the table
there is no entry to read (R31, I11). -/
def execPfreq (f : BitVec 16) (s : State) : Host.Outcome State Fault Refusal :=
  if f = 0 then .next s.refuse
  else
    match s.activeProgram with
    | some P => .next (s.accept.setSeq { s.seq with freq := f, ticksPerStep := seqTicks s.cfg.tickFreq f P })
    | none => .refused .unreachableState

/-- PAUTO's mode: Manual to Auto; Auto and OneShot to Manual (R112). -/
def toggleSeqMode : SeqMode → SeqMode
  | .manual => .auto
  | .oneShot => .manual
  | .auto => .manual

/-- PAUTO (R112). -/
def execPauto (s : State) : Host.Outcome State Fault Refusal :=
  .next (s.accept.setSeq { s.seq with mode := toggleSeqMode s.seq.mode, nextTick := s.now })

end Sys2Proof.Machine
end

