-- ==== Sys2Proof/Machine/Dispatch.lean ====
section
/-! DEFINITION. EXEC (R61): one arm per command. -/

namespace Sys2Proof.Machine

def exec (i : Instr) (s : State) : Host.Outcome State Fault Refusal :=
  match i with
  | .nop => Sys2Proof.Machine.execNop s
  | .oset ch v => Sys2Proof.Machine.execOset ch v s
  | .orev ch => Sys2Proof.Machine.execOrev ch s
  | .psel n => Sys2Proof.Machine.execPsel n s
  | .cfreq c f => Sys2Proof.Machine.execCfreq c f s
  | .pfreq f => Sys2Proof.Machine.execPfreq f s
  | .cauto c => Sys2Proof.Machine.execCauto c s
  | .csync => Sys2Proof.Machine.execCsync s
  | .csynco => Sys2Proof.Machine.execCsynco s
  | .pauto => Sys2Proof.Machine.execPauto s
  | .iack => Sys2Proof.Machine.execIack s

end Sys2Proof.Machine
end

