-- ==== Sys2Proof/Machine/Pass.lean ====
section
/-! DEFINITION. PASS (R60): reset, or the command and then every update in the fixed order. -/

namespace Sys2Proof.Machine

/-- The command part of a pass (R61): a valid command port is decoded and executed; a word of no row is
refused; without a command nothing happens and `cmd_ok` keeps its value. -/
def State.takeCommand (s : State) : Host.Outcome State Fault Refusal :=
  if s.ports.cmdValid then
    match decode s.ports.cmd with
    | .ok i => exec i s
    | .error _ => .next s.refuse
  else .next s

/-- The updates of a pass, in the order of R60: Button 0, Button 1, the Clocks or the sequencer,
OutputChannel 0 to 3, InputChannel. -/
def State.updates (s : State) : State :=
  ((((((((s.updateButton 0).updateButton 1).updateLines).updateOutput 0).updateOutput 1).updateOutput
    2).updateOutput 3).updateInput)

/-- A pass with `rst = 0` from a legal state: the command first, then the updates (R60, R39). -/
def State.runPass (s : State) : Host.Outcome State Fault Refusal :=
  match s.takeCommand with
  | .next t => .next t.updates.nextEdge
  | .fault r => .fault r
  | .refused r => .refused r

/-- PASS (R60). `rst` beats everything, from whatever state the registers are in (R126, I15). With `rst = 0`
a state that no rule gives behaviour to is refused by name (I11). -/
def State.pass (s : State) : Host.Outcome State Fault Refusal :=
  if s.ports.rst then .next s.resetPass.nextEdge
  else if s.legal then s.runPass
  else .refused .unreachableState

end Sys2Proof.Machine
end

