-- ==== Sys2Proof/Machine/Step.lean ====
section
/-! DEFINITION. The step function, one pass (R60), and how a command is presented to it. -/

namespace Sys2Proof.Machine

/-- One step: one pass at one rising `clk` edge (R8, R60). -/
def step (s : State) : Host.Outcome State Fault Refusal := s.pass

/-- The state with the command word `w` of `nbits` bits presented on the command port of the next pass: `rst`
low, `cmd_valid` high, `cmd` the word (R23, R45). Tick and pins stay as they are. -/
def State.withFetchWord (s : State) (nbits w : Nat) : State :=
  { s with
    ports :=
      { s.ports with rst := false, cmdValid := true, cmd := BitVec.ofNat 32 (w % 2 ^ nbits) } }

end Sys2Proof.Machine
end

