-- ==== Sys2Proof/Machine/Assembly.lean ====
section
/-! DEFINITION. The notation for command sequences (R53) and its pseudo-commands and directive (R54). It is a
convenience of the spec: no rule of the machine depends on it. Text is a list of characters. -/

namespace Sys2Proof.Machine

/-- What one line says (R53, R54 (b)). The prefix `@t:` belongs to a command, so an entry of the table has no
`now`. DESIGN CHOICE, safe, where R53 and R54 say nothing of a line: notes/assumptions/14.md. -/
inductive AsmLine where
  /-- a command, and the `now` of the pass that presents it, where the line gives one -/
  | command (time : Option Nat) (i : Instr)
  /-- the pass whose `now` is `time` takes no command -/
  | noCommand (time : Nat)
  /-- the directive `PROG`: one entry of the Program table -/
  | entry (P : ProgEntry)
  /-- a line with nothing before its end or its comment: it says nothing (14.md) -/
  | blank
deriving DecidableEq, Repr

/-- A blank between the words of a line. -/
def isBlank (c : Char) : Bool := c == ' ' || c == '\t'

/-- A word without the blanks around it. -/
def trimBlanks (cs : List Char) : List Char := ((cs.dropWhile isBlank).reverse.dropWhile isBlank).reverse

/-- The value of a digit in base `base`, either case. -/
def digitOf (base : Nat) (c : Char) : Option Nat :=
  let n := c.toNat
  let v := if 48 ≤ n ∧ n ≤ 57 then n - 48 else if 97 ≤ n ∧ n ≤ 102 then n - 87
    else if 65 ≤ n ∧ n ≤ 70 then n - 55 else base
  if v < base then some v else none

/-- The value of a digit string read after a prefix of value `acc`. -/
def digitsFrom (base acc : Nat) : List Char → Option Nat
  | [] => some acc
  | c :: cs =>
    match digitOf base c with
    | some d => digitsFrom base (acc * base + d) cs
    | none => none

/-- A numeral: at least one digit. -/
def digits (base : Nat) (cs : List Char) : Option Nat := if cs.isEmpty then none else digitsFrom base 0 cs

/-- A number: decimal, `0x` hexadecimal or `0b` binary (R53). -/
def asmNat (cs : List Char) : Option Nat :=
  match cs with
  | '0' :: 'x' :: ds => digits 16 ds
  | '0' :: 'b' :: ds => digits 2 ds
  | ds => digits 10 ds

/-- A number below a bound. -/
def asmBelow (bound : Nat) (cs : List Char) : Option Nat :=
  match asmNat cs with
  | some n => if n < bound then some n else none
  | none => none

/-- A payload operand, `-32768 <= v <= 65535`, taken modulo 2^16 (R53, R47 (a)). -/
def asmPayload (cs : List Char) : Option (BitVec 16) :=
  match cs with
  | '-' :: ds => (asmBelow 32769 ds).map fun n => signedPayload (-(n : Int))
  | ds => (asmBelow 65536 ds).map fun n => BitVec.ofNat 16 n

/-- The value of one decimal digit and nothing else. -/
def oneDigit (cs : List Char) : Option Nat :=
  match cs with
  | [c] => digitOf 10 c
  | _ => none

/-- A frequency in Hz `X.Y`, `X` a decimal integer and `Y` one decimal digit, in tenths of Hz: `10*X + Y`
(R54 (a)), none where that is no 16-bit operand (R53). -/
def asmHz (cs : List Char) : Option (BitVec 16) :=
  match digits 10 (cs.takeWhile (· != '.')), oneDigit (cs.dropWhile (· != '.')).tail with
  | some x, some y => if 10 * x + y < 65536 then some (BitVec.ofNat 16 (10 * x + y)) else none
  | _, _ => none

/-- A `PROG len, seq0, seq1` directive, none where the entry is no legal one (R54 (b), R50). -/
def asmEntry (len seq0 seq1 : List Char) : Option ProgEntry :=
  match asmBelow 256 len, asmBelow 65536 seq0, asmBelow 65536 seq1 with
  | some l, some a, some b =>
    if h : 0 < (BitVec.ofNat 8 l).toNat ∧ (BitVec.ofNat 8 l).toNat ≤ 16 then
      some { len := BitVec.ofNat 8 l, seq0 := BitVec.ofNat 16 a, seq1 := BitVec.ofNat 16 b,
             len_pos := h.1, len_le := h.2 }
    else none
  | _, _, _ => none

/-- A command with no operand. -/
def asmPlain (i : Instr) (ops : List (List Char)) : Option Instr :=
  match ops with
  | [] => some i
  | _ => none

/-- A command with one operand. -/
def asmOne {α : Type} (f : List Char → Option α) (mk : α → Instr) (ops : List (List Char)) : Option Instr :=
  match ops with
  | [a] => (f a).map mk
  | _ => none

/-- A command with a unit number and an operand. -/
def asmUnit (n : Nat) (f : List Char → Option (BitVec 16)) (mk : BitVec 8 → BitVec 16 → Instr)
    (ops : List (List Char)) : Option Instr :=
  match ops with
  | [u, a] =>
    match asmBelow n u, f a with
    | some k, some v => some (mk (BitVec.ofNat 8 k) v)
    | _, _ => none
  | _ => none

/-- A 16-bit unsigned operand. -/
def asmHalf (cs : List Char) : Option (BitVec 16) := (asmBelow 65536 cs).map (BitVec.ofNat 16)

/-- A unit number in `0 .. n-1`. -/
def asmIdx (n : Nat) (cs : List Char) : Option (BitVec 8) := (asmBelow n cs).map (BitVec.ofNat 8)

/-- A command: a mnemonic with its operands, one of the forms of R53 or of the pseudo-commands `CFREQHZ` and
`PFREQHZ` of R54 (a); there are no others (R54 (c)). -/
def asmForm (mnemonic : List Char) (ops : List (List Char)) : Option Instr :=
  if mnemonic = ['N', 'O', 'P'] then asmPlain .nop ops
  else if mnemonic = ['O', 'S', 'E', 'T'] then asmUnit 4 asmPayload .oset ops
  else if mnemonic = ['O', 'R', 'E', 'V'] then asmOne (asmIdx 4) .orev ops
  else if mnemonic = ['P', 'S', 'E', 'L'] then asmOne asmHalf .psel ops
  else if mnemonic = ['C', 'F', 'R', 'E', 'Q'] then asmUnit 2 asmHalf .cfreq ops
  else if mnemonic = ['P', 'F', 'R', 'E', 'Q'] then asmOne asmHalf .pfreq ops
  else if mnemonic = ['C', 'A', 'U', 'T', 'O'] then asmOne (asmIdx 2) .cauto ops
  else if mnemonic = ['C', 'S', 'Y', 'N', 'C'] then asmPlain .csync ops
  else if mnemonic = ['C', 'S', 'Y', 'N', 'C', 'O'] then asmPlain .csynco ops
  else if mnemonic = ['P', 'A', 'U', 'T', 'O'] then asmPlain .pauto ops
  else if mnemonic = ['I', 'A', 'C', 'K'] then asmPlain .iack ops
  else if mnemonic = ['C', 'F', 'R', 'E', 'Q', 'H', 'Z'] then asmUnit 2 asmHz .cfreq ops
  else if mnemonic = ['P', 'F', 'R', 'E', 'Q', 'H', 'Z'] then asmOne asmHz .pfreq ops
  else none

/-- The directive `PROG len, seq0, seq1` (R54 (b)). -/
def asmDirective (mnemonic : List Char) (ops : List (List Char)) : Option ProgEntry :=
  if mnemonic = ['P', 'R', 'O', 'G'] then
    match ops with
    | [l, a, b] => asmEntry l a b
    | _ => none
  else none

/-- The first word of a line. -/
def asmMnemonic (cs : List Char) : List Char := (trimBlanks cs).takeWhile fun c => !isBlank c

/-- The operands of a line: the words between commas, none in a line with no operand (R53). -/
def asmOperands (cs : List Char) : List (List Char) :=
  let ops := trimBlanks ((trimBlanks cs).dropWhile fun c => !isBlank c)
  if ops.isEmpty then [] else (ops.splitOn ',').map trimBlanks

/-- The command of a line after its prefix and without its comment. -/
def asmCommand (cs : List Char) : Option Instr := asmForm (asmMnemonic cs) (asmOperands cs)

/-- A line that starts with `@`, after the `@`: `t:` and the command presented in the pass whose `now` is `t`,
or `t` alone for a pass with no command (R53). A directive is no command (R54 (b)), so it takes no prefix.
R53 gives `t` no range: any natural number is read, and one at or above 2^64 names no pass, since `now` has 64
bits (R8). DESIGN CHOICE, both: notes/assumptions/14.md. -/
def asmPrefixed (cs : List Char) : Option AsmLine :=
  match asmNat (trimBlanks (cs.takeWhile (· != ':'))), cs.dropWhile (· != ':') with
  | some t, [] => some (.noCommand t)
  | some t, _ :: cmd => (asmCommand cmd).map (.command (some t))
  | none, _ => none

/-- A line without prefix: a command (R53) or a directive (R54 (b)). -/
def asmPlainLine (cs : List Char) : Option AsmLine :=
  match asmCommand cs with
  | some i => some (.command none i)
  | none => (asmDirective (asmMnemonic cs) (asmOperands cs)).map .entry

/-- One line of R53 and R54, its comment from `;` on left out; none where it is no line of the notation. A line
with nothing else on it is `blank`, and no malformed line. DESIGN CHOICE: notes/assumptions/14.md. -/
def assembleLine (line : List Char) : Option AsmLine :=
  match trimBlanks (line.takeWhile (· != ';')) with
  | [] => some .blank
  | '@' :: rest => asmPrefixed rest
  | c :: cs => asmPlainLine (c :: cs)

/-- The lines of a text, each read; none where one of them is no line of the notation. -/
def assembleText (text : List Char) : Option (List AsmLine) := (text.splitOn '\n').mapM assembleLine

/-- The entry a line declares. -/
def AsmLine.entry? : AsmLine → Option ProgEntry
  | .command _ _ => none
  | .noCommand _ => none
  | .entry P => some P
  | .blank => none

/-- The Program table a sequence of lines declares: its `PROG` entries in table order, the first at index 0
(R54 (b)). -/
def assembledTable (lines : List AsmLine) : List ProgEntry := lines.filterMap AsmLine.entry?

/-- The configuration `c` with the table `table`, entry 0 the sentinel (R38); none where that is no
configuration: an empty table, or more than `MAX_PROGRAMS` entries (R123). -/
def configWithTable (c : Config) (table : List ProgEntry) : Option Config :=
  match table with
  | [] => none
  | P :: ps =>
    if h : ps.length + 1 ≤ c.maxPrograms then some { c with sentinel := P, programs := ps, table_le := h }
    else none

end Sys2Proof.Machine
end

