-- ==== Sys2Proof/Machine/Ports.lean ====
section
/-! DEFINITION. The output ports (R24, R25, R52, R81): what the environment sees of a state. -/

namespace Sys2Proof.Machine

/-- The pins and status ports of the core (R24, R25). -/
structure OutPorts where
  /-- `clk_out[1:0]` -/
  clkOut : Two Bool
  /-- `out_data[3:0]` -/
  outData : Four Bool
  /-- `out_enable[3:0]` -/
  outEnable : Four Bool
  /-- `in_load` -/
  inLoad : Bool
  /-- `in_shift` -/
  inShift : Bool
  /-- `in_clock` -/
  inClock : Bool
  /-- `btn_state[1:0]` -/
  btnState : Two Bool
  /-- `btn_changed[1:0]` -/
  btnChanged : Two Bool
  /-- `clk_mode[1:0]`, tags of R51 -/
  clkMode : Two (BitVec 1)
  /-- `clk_freq[0]`, `clk_freq[1]` -/
  clkFreq : Two (BitVec 16)
  /-- `out_reversed[3:0]` -/
  outReversed : Four Bool
  /-- `in_word` -/
  inWord : Half
  /-- `in_word_mirrored` -/
  inWordMirrored : Half
  /-- `in_changed` -/
  inChanged : Bool
  /-- `cur_prog` -/
  curProg : BitVec 8
  /-- `seq_mode`, tags of R51 -/
  seqMode : BitVec 2
  /-- `cmd_ok` -/
  cmdOk : Bool
deriving DecidableEq, Repr

/-- A port of a bank of two shows one register of each unit. -/
def portOfTwo {α β : Type} (f : α → β) (t : Two α) : Two β := ⟨f t.u0, f t.u1⟩

/-- A port of a bank of four shows one register of each unit. -/
def portOfFour {α β : Type} (f : α → β) (t : Four α) : Four β := ⟨f t.u0, f t.u1, f t.u2, f t.u3⟩

/-- The output ports of a state: after a pass they show the registers at the end of that pass (R65); the
line of a Clock is its `state` (R81); modes carry their tags and every other port the register's bits
(R52). -/
def State.outPorts (s : State) : OutPorts :=
  { clkOut := portOfTwo Clock.state s.clk
    outData := portOfFour OutputChannel.dataPin s.out
    outEnable := portOfFour OutputChannel.enablePin s.out
    inLoad := s.inp.loadPin
    inShift := s.inp.shiftPin
    inClock := s.inp.clockPin
    btnState := portOfTwo Button.state s.btn
    btnChanged := portOfTwo Button.stateChanged s.btn
    clkMode := portOfTwo (fun c => clockModeTag c.mode) s.clk
    clkFreq := portOfTwo Clock.freq s.clk
    outReversed := portOfFour OutputChannel.reverse s.out
    inWord := s.inp.data
    inWordMirrored := s.inp.dataMirrored
    inChanged := s.inp.dataChanged
    curProg := s.seq.curProg
    seqMode := seqModeTag s.seq.mode
    cmdOk := s.cmdOk }

end Sys2Proof.Machine
end

