-- ==== Sys2Proof/Safety.lean ====
section
/-! DEFINITION. The terms in which claims are stated: runs over given inputs, quiet inputs, passes in which a
deadline has passed, and the invariants the spec states of the registers. -/

namespace Sys2Proof.Machine

/-- One pass on the input levels `p` (R9: the inputs of a pass decide it). -/
def passOn (p : InPorts) (s : State) : Host.Outcome State Fault Refusal := step { s with ports := p }

/-- The passes on the input levels `ps`, in order, stopping at the first that gives no next state. -/
def runOn : List InPorts → State → Host.Outcome State Fault Refusal
  | [], s => .next s
  | p :: ps, s =>
    match passOn p s with
    | .next t => runOn ps t
    | .fault r => .fault r
    | .refused r => .refused r

/-- The states after each pass of `runOn ps s`. -/
def traceOn : List InPorts → State → List State
  | [], _ => []
  | p :: ps, s =>
    match passOn p s with
    | .next t => t :: traceOn ps t
    | .fault _ => []
    | .refused _ => []

/-- Inputs with neither reset nor command. -/
def quiet (p : InPorts) : Bool := !p.rst && !p.cmdValid

/-- In every pass of `runOn ps s` the deadline `d` of the state has passed. -/
def dueEvery (d : State → Tick) : List InPorts → State → Bool
  | [], _ => true
  | p :: ps, s =>
    deadlinePassed p.tick (d s) &&
      match passOn p s with
      | .next t => dueEvery d ps t
      | .fault _ => true
      | .refused _ => true

/-- How many samples Button `i` takes in `runOn ps s` (R70 (b)). -/
def samplesTaken (i : Fin 2) : List InPorts → State → Nat
  | [], _ => 0
  | p :: ps, s =>
    (if deadlinePassed p.tick (Two.get s.btn i).nextTick then 1 else 0) +
      match passOn p s with
      | .next t => samplesTaken i ps t
      | .fault _ => 0
      | .refused _ => 0

/-- The hardware refuses the command: its word matches no row, or its value check fails (R121). -/
def refusedCommand (s : State) : Bool :=
  match decode s.ports.cmd with
  | .error _ => true
  | .ok (.psel n) => (progRead s.cfg n.toNat).isNone
  | .ok (.cfreq _ f) => f == 0
  | .ok (.pfreq f) => f == 0
  | .ok .nop => false
  | .ok (.oset _ _) => false
  | .ok (.orev _) => false
  | .ok (.cauto _) => false
  | .ok .csync => false
  | .ok .csynco => false
  | .ok .pauto => false
  | .ok .iack => false

/-- A Button between passes (R11): the debounced value agrees with a register of all ones or all zeros, and
the flag is up only with such a register. -/
structure ButtonInv (b : Button) : Prop where
  /-- all ones means true -/
  ones : b.reg = 0xFF → b.state = true
  /-- all zeros means false -/
  zeros : b.reg = 0x00 → b.state = false
  /-- the state flips only at all ones or all zeros -/
  edge : b.stateChanged = true → b.reg = if b.state then 0xFF else 0x00

/-- A Clock between passes (R12): `ticks_per_step` is derived from a legal frequency. -/
structure ClockInv (tickFreq : BitVec 48) (c : Clock) : Prop where
  /-- the frequency is legal (R47 (b)) -/
  freq_ne : c.freq ≠ 0
  /-- the divider is the one of the frequency (R77) -/
  ticks : c.ticksPerStep = clockTicks tickFreq c.freq

/-- An OutputChannel between passes (R13, R85). -/
structure OutputInv (o : OutputChannel) : Prop where
  /-- `bit` is in 0..16, and a data slot is left in Pause -/
  legal : outputLegal o = true
  /-- the flush slot comes after the sixteen data slots (90_conflicts.md C2) -/
  flush : o.last = true → o.bit = 16
  /-- a slot that is past its Pause has been counted -/
  counted : o.st = .dataSet ∨ o.st = .enableSet → o.bit ≠ 0
  /-- the enable pin is high in EnableSet -/
  strobe : o.st = .enableSet → o.enablePin = true
  /-- the enable pin is low in Idle -/
  rest : o.st = .idle → o.enablePin = false

/-- The InputChannel between passes: the pin levels of R95's table, the counter of R14, and the mirrored
words (R34). -/
structure InputInv (i : InputChannel) : Prop where
  /-- `bit_count` is in 0..15 -/
  legal : inputLegal i = true
  /-- a cycle starts with no sample taken -/
  start : i.st = .idle ∨ i.st = .loadingData → i.bitCount = 0
  /-- a clock pulse follows a sample -/
  pulse : i.st = .shiftClockOn → i.bitCount ≠ 0
  /-- the load strobe is high after the Idle action only -/
  load : i.loadPin = true ↔ i.st = .loadingData
  /-- the shift strobe is high while the word is shifted -/
  shift : i.st = .serialShiftOff ∨ i.st = .shiftClockOn → i.shiftPin = true
  /-- the clock strobe is high after the ShiftClockOn action only -/
  clock : i.clockPin = true ↔ i.st = .serialShiftOff ∧ i.bitCount ≠ 0
  /-- the published words are mirror images -/
  mirror : i.dataMirrored = i.data.reverse
  /-- so are the words being assembled -/
  tempMirror : i.tempMirrored = i.tempData.reverse

/-- The sequencer between passes (R16): the position is legal and `ticks_per_step` is the one of the
frequency and the active Program (R110 (a), R111). -/
structure SeqInv (c : Config) (q : ProgramControl) : Prop where
  /-- the position is legal -/
  legal : seqLegal c q = true
  /-- the frequency is legal (R47 (b)) -/
  freq_ne : q.freq ≠ 0
  /-- the divider is the one of the frequency and the length -/
  ticks : ∀ P, progRead c q.curProg.toNat = some P → q.ticksPerStep = seqTicks c.tickFreq q.freq P

/-- The invariant of the core: every register holds a legal value (R20), with the relations the spec states
between registers (R11 to R16). -/
structure State.Inv (s : State) : Prop where
  /-- both Buttons -/
  btn : ∀ i, ButtonInv (Two.get s.btn i)
  /-- both Clocks -/
  clk : ∀ i, ClockInv s.cfg.tickFreq (Two.get s.clk i)
  /-- the four OutputChannels -/
  out : ∀ ch, OutputInv (Four.get s.out ch)
  /-- the InputChannel -/
  inp : InputInv s.inp
  /-- the sequencer -/
  seq : SeqInv s.cfg s.seq

end Sys2Proof.Machine
end

