-- ==== Sys2Proof/Certificates/Slice0/Obligations.lean ====
section
/-! DEFINITION. The statements for the provers, each one formalising rules of the spec. -/

open Sys2Proof Sys2Proof.Machine

/-! ### Encodings (30_encoding.md) -/

/-- R45, R46, R48, R53: decoding the word of a well-formed command gives the command back, every operand at
every value. -/
def Obligations.DecodeInvertsEncode : Prop :=
  ∀ i : Instr, i.wf = true → decode (encode i) = .ok i

/-- R45, R46, R48: a word that decodes is the word of the command it decodes to, and that command is well
formed: no bit of a word is dropped. -/
def Obligations.EncodeInvertsDecode : Prop :=
  ∀ (w : CmdWord) (i : Instr), decode w = .ok i → i.wf = true ∧ encode i = w

/-- R48: "A word is the named command iff `(cmd & mask) = match`", for every row of the opcode map; and no word
belongs to two rows. -/
def Obligations.WordBelongsToItsRow : Prop :=
  ∀ (w : CmdWord) (r : OpcodeRow), r ∈ opcodeMap →
    ((r.matches w = true ↔ ∃ i, decode w = .ok i ∧ i.row = r) ∧
      ∀ q ∈ opcodeMap, r.matches w = true → q.matches w = true → q = r)

/-- R49: the reserved words, and their whole effect when presented. -/
def Obligations.ReservedWordsAreRefused : Prop :=
  ∀ w : CmdWord,
    ((∃ e, decode w = .error e) ↔
      (0x0B ≤ (opField w).toNat ∨
        ((opField w = 0x01 ∨ opField w = 0x02) ∧ 3 < (idxField w).toNat) ∨
        ((opField w = 0x04 ∨ opField w = 0x06) ∧ 1 < (idxField w).toNat) ∨
        ((opField w = 0x00 ∨ opField w = 0x03 ∨ opField w = 0x05 ∨ opField w = 0x07 ∨ opField w = 0x08 ∨
            opField w = 0x09 ∨ opField w = 0x0A) ∧ idxField w ≠ 0) ∨
        ((opField w = 0x00 ∨ opField w = 0x02 ∨ opField w = 0x06 ∨ opField w = 0x07 ∨ opField w = 0x08 ∨
            opField w = 0x09 ∨ opField w = 0x0A) ∧ immField w ≠ 0))) ∧
      ∀ s : State, s.ports.cmdValid = true → s.ports.cmd = w → (∃ e, decode w = .error e) →
        s.takeCommand = .next { s with cmdOk := false }

/-- 95_test_vectors.md E1 and P3 to P5: words written out from the encoding table decode to their commands. -/
def Obligations.ExampleWordsDecode : Prop :=
  decode 0x0102FFFF = .ok (.oset 2 0xFFFF) ∧ decode 0x0100FFFE = .ok (.oset 0 0xFFFE) ∧
    decode 0x0400000F = .ok (.cfreq 0 15) ∧ decode 0x06010000 = .ok (.cauto 1) ∧
    decode 0x03000001 = .ok (.psel 1) ∧ decode 0x02010000 = .ok (.orev 1) ∧
    decode 0x050000FA = .ok (.pfreq 250) ∧ decode 0x0A000000 = .ok .iack ∧
    decode 0x0B000000 = .error .unknownOp ∧ decode 0x01040001 = .error .unitOutOfRange ∧
    decode 0x03010001 = .error .idxNotZero ∧ decode 0x07000001 = .error .immNotZero

/-- R50, R15, R123: the 40-bit word of an entry unpacks to the entry and back, and a word unpacks exactly when
its length is in 1..16. -/
def Obligations.EntryPackingRoundTrips : Prop :=
  (∀ P : ProgEntry, unpackEntry (packEntry P) = some P) ∧
    (∀ (w : BitVec 40) (P : ProgEntry), unpackEntry w = some P → packEntry P = w) ∧
    ∀ w : BitVec 40,
      unpackEntry w = none ↔ (w.extractLsb' 32 8).toNat = 0 ∨ 16 < (w.extractLsb' 32 8).toNat

/-! ### The pass (40_pass_and_commands.md) -/

/-- R60, R61: in a pass without reset whose command port holds a word that decodes, the step is EXEC of that
command followed by the updates, and the environment's next inputs follow. -/
def Obligations.StepRunsTheDecodedCommand : Prop :=
  ∀ (s : State) (i : Instr),
    s.ports.rst = false → s.ports.cmdValid = true → s.legal = true → decode s.ports.cmd = .ok i →
      step s =
        match exec i s with
        | .next t => .next t.updates.nextEdge
        | .fault r => .fault r
        | .refused r => .refused r

/-- R61: "when `cmd_valid = 0` the `cmd` port is ignored and `cmd_ok` keeps its value"; the updates run. -/
def Obligations.PassWithoutCommandRunsUpdatesOnly : Prop :=
  ∀ (s : State) (w : CmdWord),
    s.ports.rst = false → s.ports.cmdValid = false → s.legal = true →
      step s = .next s.updates.nextEdge ∧ s.updates.nextEdge.cmdOk = s.cmdOk ∧
        step { s with ports := { s.ports with cmd := w } } = step s

/-- R64: a refused command writes `cmd_ok <- 0` and no other register, and the updates of the pass run as if no
command had been presented. -/
def Obligations.RefusedCommandActsAsNoCommand : Prop :=
  ∀ s : State,
    s.ports.rst = false → s.ports.cmdValid = true → s.legal = true → refusedCommand s = true →
      ∃ t, step { s with ports := { s.ports with cmdValid := false } } = .next t ∧
        step s = .next { t with cmdOk := false }

/-- R121, R61: after a pass that took a command `cmd_ok` is 0 exactly when the word is reserved, the PSEL index
is out of range, or the frequency is 0. -/
def Obligations.CmdOkTellsRefusal : Prop :=
  ∀ s t : State,
    s.ports.rst = false → s.ports.cmdValid = true → step s = .next t →
      (t.cmdOk = false ↔
        (∃ e, decode s.ports.cmd = .error e) ∨
          (∃ n, decode s.ports.cmd = .ok (.psel n) ∧ progCount s.cfg ≤ n.toNat) ∨
          (∃ c, decode s.ports.cmd = .ok (.cfreq c 0)) ∨ decode s.ports.cmd = .ok (.pfreq 0))

/-- R135: a pass with `rst = 1`, from whatever state, leaves the reset values, and the parameters stay. -/
def Obligations.ResetPassLeavesResetValues : Prop :=
  ∀ s : State, s.ports.rst = true →
    ∃ t, step s = .next t ∧ t.cfg = s.cfg ∧
      (∀ i, Two.get t.btn i = { reg := 0x00, state := false, stateChanged := false, nextTick := s.ports.tick }) ∧
      (∀ i, Two.get t.clk i =
        { mode := .manual, state := false, nextTick := s.ports.tick, freq := Two.get s.cfg.clkFreqReset i,
          ticksPerStep :=
            BitVec.ofNat 64 ((s.cfg.tickFreq.toNat * 10) / ((Two.get s.cfg.clkFreqReset i).toNat * 2)) }) ∧
      (∀ ch, Four.get t.out ch =
        { st := .idle, data := 0x0000, bit := 0, reverse := false, last := false, nextTick := s.ports.tick,
          dataPin := false, enablePin := false }) ∧
      t.inp =
        { st := .idle, data := 0x0000, dataMirrored := 0x0000, tempData := 0x0000, tempMirrored := 0x0000,
          bitCount := 0, dataChanged := false, nextTick := s.ports.tick, loadPin := false, shiftPin := false,
          clockPin := false } ∧
      t.seq =
        { curProg := 0, mode := .manual, step := 0, nextTick := s.ports.tick, freq := s.cfg.progFreqReset,
          ticksPerStep :=
            BitVec.ofNat 64
              ((s.cfg.tickFreq.toNat * 10) / (s.cfg.progFreqReset.toNat * s.cfg.sentinel.len.toNat)) } ∧
      t.cmdOk = true

/-- `State.reset` is the state a reset pass leaves, whose tick value, parameters and next input ports are the
model's free values (R26, R135; notes/assumptions/1.md, 2.md, 3.md). -/
def Obligations.ResetStateIsAResetPass : Prop :=
  ∀ s : State, s.ports.rst = true → s.ports.tick = Config.initialTick → s.cfg = Config.platform →
    ∃ t, step s = .next t ∧
      State.reset = { t with ports := Config.environment 0, upcoming := [], envIndex := 1 }

/-! ### The commands, with their frames: each equation names every register the command writes -/

/-- R62: NOP sets `cmd_ok` and nothing else, and its pass differs from a pass without a command in that only. -/
def Obligations.NopSetsCmdOkOnly : Prop :=
  ∀ s : State,
    decode 0x00000000 = .ok .nop ∧ exec .nop s = .next { s with cmdOk := true } ∧
      (s.ports.rst = false → s.ports.cmdValid = true → s.legal = true → s.ports.cmd = 0x00000000 →
        ∃ t, step { s with ports := { s.ports with cmdValid := false } } = .next t ∧
          step s = .next { t with cmdOk := true })

/-- R86: OSET loads the payload and restarts the channel from slot 0; the pins, `reverse` and every other
register stay. The clause for a channel above 3 is the model's choice (notes/assumptions/8.md, DEDUCED): no word decodes to
such a term; R49 refuses the word with those fields, and `exec` refuses the term the same way. -/
def Obligations.OsetRestartsTheChannel : Prop :=
  ∀ (s : State) (v : BitVec 16),
    (∀ ch : BitVec 8, encode (.oset ch v) = 0x01000000 ||| (ch.setWidth 32 <<< 16) ||| v.setWidth 32) ∧
    (∀ k : Fin 4,
      exec (.oset (BitVec.ofNat 8 k.val) v) s =
        .next { s with
          cmdOk := true
          out := Four.set s.out k
            { Four.get s.out k with
              data := v, bit := 0, last := false, st := .pause, nextTick := s.ports.tick } }) ∧
      ∀ ch : BitVec 8, 3 < ch.toNat → exec (.oset ch v) s = .next { s with cmdOk := false }

/-- R87: OREV toggles `reverse` and restarts the channel with its payload; the pins and every other register
stay. The clause for a channel above 3 is the model's choice (notes/assumptions/8.md, DEDUCED): no word decodes to
such a term; R49 refuses the word with those fields, and `exec` refuses the term the same way. -/
def Obligations.OrevTogglesAndRestarts : Prop :=
  ∀ s : State,
    (∀ ch : BitVec 8, encode (.orev ch) = 0x02000000 ||| (ch.setWidth 32 <<< 16)) ∧
    (∀ k : Fin 4,
      exec (.orev (BitVec.ofNat 8 k.val)) s =
        .next { s with
          cmdOk := true
          out := Four.set s.out k
            { Four.get s.out k with
              reverse := !(Four.get s.out k).reverse, bit := 0, last := false, st := .pause,
              nextTick := s.ports.tick } }) ∧
      ∀ ch : BitVec 8, 3 < ch.toNat → exec (.orev ch) s = .next { s with cmdOk := false }

/-- R110: PSEL of an index below `prog_count` switches the Program, clears step and deadline, forces Manual and
recomputes `ticks_per_step`; the lines and every other register stay. Any other index is refused. -/
def Obligations.PselSelectsOrRefuses : Prop :=
  ∀ (s : State) (n : BitVec 16),
    encode (.psel n) = 0x03000000 ||| n.setWidth 32 ∧
    (n.toNat < progCount s.cfg →
      ∃ P, progRead s.cfg n.toNat = some P ∧
        exec (.psel n) s =
          .next { s with
            cmdOk := true
            seq :=
              { curProg := BitVec.ofNat 8 n.toNat, mode := .manual, step := 0, nextTick := 0,
                freq := s.seq.freq
                ticksPerStep :=
                  BitVec.ofNat 64 ((s.cfg.tickFreq.toNat * 10) / (s.seq.freq.toNat * P.len.toNat)) } } ∧
        (BitVec.ofNat 8 n.toNat).toNat = n.toNat) ∧
      (progCount s.cfg ≤ n.toNat → exec (.psel n) s = .next { s with cmdOk := false })

/-- R77: CFREQ sets the frequency and the divider of one Clock, whose mode, line and deadline stay, as does
every other register. A frequency of 0 is refused. The clause for a Clock above 1 is the model's choice (notes/assumptions/8.md, DEDUCED): no word decodes to
such a term; R49 refuses the word with those fields, and `exec` refuses the term the same way. -/
def Obligations.CfreqSetsTheDivider : Prop :=
  ∀ (s : State) (f : BitVec 16),
    (∀ c : BitVec 8, encode (.cfreq c f) = 0x04000000 ||| (c.setWidth 32 <<< 16) ||| f.setWidth 32) ∧
    (∀ k : Fin 2, f ≠ 0 →
      exec (.cfreq (BitVec.ofNat 8 k.val) f) s =
        .next { s with
          cmdOk := true
          clk := Two.set s.clk k
            { Two.get s.clk k with
              freq := f
              ticksPerStep := BitVec.ofNat 64 ((s.cfg.tickFreq.toNat * 10) / (f.toNat * 2)) } }) ∧
      (∀ c : BitVec 8, exec (.cfreq c 0) s = .next { s with cmdOk := false }) ∧
      ∀ c : BitVec 8, 1 < c.toNat → exec (.cfreq c f) s = .next { s with cmdOk := false }

/-- R111: PFREQ sets the sequencer's frequency and its divider for the active Program; mode, step, deadline and
every other register stay. A frequency of 0 is refused. -/
def Obligations.PfreqSetsTheStepDivider : Prop :=
  ∀ (s : State) (f : BitVec 16),
    encode (.pfreq f) = 0x05000000 ||| f.setWidth 32 ∧
    (f ≠ 0 → ∀ P, progRead s.cfg s.seq.curProg.toNat = some P →
      exec (.pfreq f) s =
        .next { s with
          cmdOk := true
          seq :=
            { s.seq with
              freq := f
              ticksPerStep := BitVec.ofNat 64 ((s.cfg.tickFreq.toNat * 10) / (f.toNat * P.len.toNat)) } }) ∧
      exec (.pfreq 0) s = .next { s with cmdOk := false }

/-- R78: CAUTO toggles the mode of one Clock and re-arms its deadline to `now`; the line and every other
register stay. The clause for a Clock above 1 is the model's choice (notes/assumptions/8.md, DEDUCED): no word decodes to
such a term; R49 refuses the word with those fields, and `exec` refuses the term the same way. -/
def Obligations.CautoTogglesTheClockMode : Prop :=
  ∀ s : State,
    (∀ c : BitVec 8, encode (.cauto c) = 0x06000000 ||| (c.setWidth 32 <<< 16)) ∧
    (∀ k : Fin 2,
      exec (.cauto (BitVec.ofNat 8 k.val)) s =
        .next { s with
          cmdOk := true
          clk := Two.set s.clk k
            { Two.get s.clk k with
              mode := if (Two.get s.clk k).mode = .manual then .auto else .manual
              nextTick := s.ports.tick } }) ∧
      ∀ c : BitVec 8, 1 < c.toNat → exec (.cauto c) s = .next { s with cmdOk := false }

/-- R79: CSYNC copies clock 0's line and deadline to clock 1 under the sentinel, and does nothing but set
`cmd_ok` under another Program. -/
def Obligations.CsyncCopiesThePhase : Prop :=
  ∀ s : State,
    decode 0x07000000 = .ok .csync ∧
    (s.seq.curProg = 0 →
      exec .csync s =
        .next { s with
          cmdOk := true
          clk := { s.clk with
            u1 := { s.clk.u1 with state := s.clk.u0.state, nextTick := s.clk.u0.nextTick } } }) ∧
      (s.seq.curProg ≠ 0 → exec .csync s = .next { s with cmdOk := true })

/-- R80: CSYNCO copies clock 0's line to clock 1 with clock 0's deadline one `ticks_per_step` later, under the
sentinel, and does nothing but set `cmd_ok` under another Program. -/
def Obligations.CsyncoOffsetsThePhase : Prop :=
  ∀ s : State,
    decode 0x08000000 = .ok .csynco ∧
    (s.seq.curProg = 0 →
      exec .csynco s =
        .next { s with
          cmdOk := true
          clk := { s.clk with
            u1 := { s.clk.u1 with
              state := s.clk.u0.state
              nextTick := s.clk.u0.nextTick + s.clk.u0.ticksPerStep } } }) ∧
      (s.seq.curProg ≠ 0 → exec .csynco s = .next { s with cmdOk := true })

/-- R112: PAUTO goes from Manual to Auto and from Auto and OneShot to Manual, and re-arms the deadline to `now`;
the step and every other register stay. -/
def Obligations.PautoTogglesTheSequencerMode : Prop :=
  ∀ s : State,
    decode 0x09000000 = .ok .pauto ∧
    exec .pauto s =
      .next { s with
        cmdOk := true
        seq :=
          { s.seq with
            mode := if s.seq.mode = .manual then .auto else .manual
            nextTick := s.ports.tick } }

/-- R96: IACK clears `data_changed` and nothing else; in the pass that takes it the receiver's update runs after
the clear, so that a publication of the same pass is not lost. -/
def Obligations.IackClearsTheFlag : Prop :=
  ∀ s : State,
    decode 0x0A000000 = .ok .iack ∧
    exec .iack s = .next { s with cmdOk := true, inp := { s.inp with dataChanged := false } } ∧
      (s.ports.rst = false → s.ports.cmdValid = true → s.legal = true → s.ports.cmd = 0x0A000000 →
        ∃ t, step s = .next t ∧
          t.inp =
            inputUpdate s.cfg.inputTickInterval s.ports.tick s.ports.inData
              { s.inp with dataChanged := false })

/-- R42, R22, R86, R87: a command writes no pin register, no Button and no entry of the Program table, and the
environment's inputs stay. -/
def Obligations.CommandsWriteNoPinAndNoTable : Prop :=
  ∀ (i : Instr) (s t : State), exec i s = .next t →
    t.cfg = s.cfg ∧ (∀ n, progRead t.cfg n = progRead s.cfg n) ∧ t.btn = s.btn ∧
      (∀ ch, (Four.get t.out ch).dataPin = (Four.get s.out ch).dataPin ∧
        (Four.get t.out ch).enablePin = (Four.get s.out ch).enablePin) ∧
      t.inp.loadPin = s.inp.loadPin ∧ t.inp.shiftPin = s.inp.shiftPin ∧ t.inp.clockPin = s.inp.clockPin ∧
      t.ports = s.ports ∧ t.upcoming = s.upcoming ∧ t.envIndex = s.envIndex

/-- R147: a machine that a command re-arms to `now` does not act in the pass of the command. -/
def Obligations.RearmedMachinesWait : Prop :=
  ∀ s t : State, s.ports.rst = false → s.ports.cmdValid = true → step s = .next t →
    (∀ (k : Fin 4) (v : BitVec 16), decode s.ports.cmd = .ok (.oset (BitVec.ofNat 8 k.val) v) →
      Four.get t.out k =
        { Four.get s.out k with data := v, bit := 0, last := false, st := .pause, nextTick := s.ports.tick }) ∧
      (∀ k : Fin 4, decode s.ports.cmd = .ok (.orev (BitVec.ofNat 8 k.val)) →
        Four.get t.out k =
          { Four.get s.out k with
            reverse := !(Four.get s.out k).reverse, bit := 0, last := false, st := .pause,
            nextTick := s.ports.tick }) ∧
      (∀ k : Fin 2, decode s.ports.cmd = .ok (.cauto (BitVec.ofNat 8 k.val)) → s.seq.curProg = 0 →
        (Two.get s.clk k).mode = .manual →
        Two.get t.clk k = { Two.get s.clk k with mode := .auto, nextTick := s.ports.tick }) ∧
      (decode s.ports.cmd = .ok .pauto → s.seq.curProg ≠ 0 → s.seq.mode = .manual →
        t.seq = { s.seq with mode := .auto, nextTick := s.ports.tick } ∧ t.clk = s.clk)

/-! ### The Buttons (41_button.md) -/

/-- R70: BTN.UPDATE, in every pass without reset and whatever the command: the flag is cleared; when the deadline
has passed the sample is shifted in, the deadline advances from its old value, and the state flips at all ones
and at all zeros only. -/
def Obligations.ButtonSamplesAndFlips : Prop :=
  ∀ (s t : State) (i : Fin 2), s.ports.rst = false → step s = .next t →
    (¬ (Two.get s.btn i).nextTick < s.ports.tick →
      Two.get t.btn i = { Two.get s.btn i with stateChanged := false }) ∧
      ((Two.get s.btn i).nextTick < s.ports.tick →
        (Two.get t.btn i).nextTick = (Two.get s.btn i).nextTick + s.cfg.buttonUpdateInterval.setWidth 64 ∧
          (Two.get t.btn i).reg =
            ((Two.get s.btn i).reg <<< 1) ||| (BitVec.ofBool (Two.get s.ports.btnIn i)).setWidth 8 ∧
          (Two.get t.btn i).state =
            (if (Two.get t.btn i).reg = 0xFF then true
              else if (Two.get t.btn i).reg = 0x00 then false else (Two.get s.btn i).state) ∧
          (Two.get t.btn i).stateChanged = ((Two.get s.btn i).state != (Two.get t.btn i).state))

/-- R73, S1: while button `i` is held high, whatever commands arrive, the debounced state is true once eight
samples have been taken, and `state_changed` was up after exactly one pass, one with a register of all ones. -/
def Obligations.SteadyPressFlipsExactlyOnce : Prop :=
  ∀ (i : Fin 2) (s : State) (ps : List InPorts),
    s.legal = true → (Two.get s.btn i).state = false →
      (∀ p ∈ ps, p.rst = false ∧ Two.get p.btnIn i = true) → 8 ≤ samplesTaken i ps s →
        (∃ t, runOn ps s = .next t ∧ (Two.get t.btn i).state = true) ∧
          (traceOn ps s).countP (fun t => (Two.get t.btn i).stateChanged) = 1 ∧
          ∀ t ∈ traceOn ps s, (Two.get t.btn i).stateChanged = true → (Two.get t.btn i).reg = 0xFF

/-! ### The Clocks (42_clock.md) -/

/-- R75: CLK.UPDATE under the sentinel, in a pass without a command: a Manual Clock copies its Button's edge, an
Auto Clock toggles when its deadline has passed. -/
def Obligations.ClocksFollowButtonOrDivider : Prop :=
  ∀ (s : State) (i : Fin 2),
    s.ports.rst = false → s.ports.cmdValid = false → s.legal = true → s.seq.curProg = 0 →
      ∃ t, step s = .next t ∧
        ((Two.get s.clk i).mode = .manual →
          Two.get t.clk i =
            { Two.get s.clk i with
              state := if (Two.get t.btn i).stateChanged then (Two.get t.btn i).state
                else (Two.get s.clk i).state }) ∧
        ((Two.get s.clk i).mode = .auto → (Two.get s.clk i).nextTick < s.ports.tick →
          Two.get t.clk i =
            { Two.get s.clk i with
              state := !(Two.get s.clk i).state
              nextTick := (Two.get s.clk i).nextTick + (Two.get s.clk i).ticksPerStep }) ∧
        ((Two.get s.clk i).mode = .auto → ¬ (Two.get s.clk i).nextTick < s.ports.tick →
          Two.get t.clk i = Two.get s.clk i) ∧
        t.seq = s.seq

/-- R107: under a Program other than the sentinel the Clocks' update is bypassed: over any run without reset
and commands, mode, deadline, divider and frequency of both Clocks stand still. -/
def Obligations.ClocksAreBypassedUnderAProgram : Prop :=
  ∀ (ps : List InPorts) (s t : State) (i : Fin 2),
    s.seq.curProg ≠ 0 → (∀ p ∈ ps, quiet p = true) → runOn ps s = .next t →
      (Two.get t.clk i).mode = (Two.get s.clk i).mode ∧
        (Two.get t.clk i).nextTick = (Two.get s.clk i).nextTick ∧
        (Two.get t.clk i).ticksPerStep = (Two.get s.clk i).ticksPerStep ∧
        (Two.get t.clk i).freq = (Two.get s.clk i).freq ∧ t.seq.curProg = s.seq.curProg

/-- R79, R146: after CSYNC under the sentinel, with both Clocks in Auto mode and equal dividers, the two lines
and deadlines are equal after every later pass, as long as neither reset nor command comes. -/
def Obligations.SyncedClocksStayInPhase : Prop :=
  ∀ (s t : State) (p : InPorts) (ps : List InPorts),
    s.seq.curProg = 0 → s.clk.u0.mode = .auto → s.clk.u1.mode = .auto →
      s.clk.u0.ticksPerStep = s.clk.u1.ticksPerStep →
      p.rst = false → p.cmdValid = true → p.cmd = 0x07000000 → (∀ q ∈ ps, quiet q = true) →
      runOn (p :: ps) s = .next t →
        t.clk.u0.state = t.clk.u1.state ∧ t.clk.u0.nextTick = t.clk.u1.nextTick

/-- R80, R146: after CSYNCO under the sentinel, with both Clocks in Auto mode and equal dividers, the lines are
equal until clock 0's next toggle and opposite from then on; clock 0's toggle comes in a pass `q` that passes
its deadline and not yet clock 1's. `OffsetClocksActByTheirDeadlines` has the other passes: a CSYNCO pass in which
clock 0 is due, and a pass beyond both deadlines. -/
def Obligations.OppositeClocksStayInAntiPhase : Prop :=
  ∀ (s t : State) (p q : InPorts) (before after : List InPorts),
    s.seq.curProg = 0 → s.clk.u0.mode = .auto → s.clk.u1.mode = .auto →
      s.clk.u0.ticksPerStep = s.clk.u1.ticksPerStep →
      p.rst = false → p.cmdValid = true → p.cmd = 0x08000000 →
      (∀ r ∈ before ++ q :: after, quiet r = true) →
      (∀ r ∈ p :: before,
        ¬ s.clk.u0.nextTick < r.tick ∧ ¬ s.clk.u0.nextTick + s.clk.u0.ticksPerStep < r.tick) →
      s.clk.u0.nextTick < q.tick → ¬ s.clk.u0.nextTick + s.clk.u0.ticksPerStep < q.tick →
        (runOn (p :: before) s = .next t → t.clk.u0.state = t.clk.u1.state) ∧
          (runOn (p :: before ++ q :: after) s = .next t → t.clk.u0.state = !t.clk.u1.state)

/-- R77, R111, R6 (c), D33: the dividers are the exact floor quotients, without overflow, and below 2^52. -/
def Obligations.DividersAreExactQuotients : Prop :=
  ∀ (c : Config) (f : BitVec 16) (P : ProgEntry),
    (clockTicks c.tickFreq f).toNat = c.tickFreq.toNat * 10 / (f.toNat * 2) ∧
      (seqTicks c.tickFreq f P).toNat = c.tickFreq.toNat * 10 / (f.toNat * P.len.toNat) ∧
      (clockTicks c.tickFreq f).toNat < 2 ^ 52 ∧ (seqTicks c.tickFreq f P).toNat < 2 ^ 52

/-! ### The sequencer (45_program_control.md) -/

/-- R105, S5: the worked example of the source. -/
def Obligations.SignalsOfTheWorkedExample : Prop :=
  ∀ P : ProgEntry, P.len = 4 → P.seq0 = 0b0110 → P.seq1 = 0b0011 →
    signals P 0 = (false, false) ∧ signals P 1 = (true, false) ∧ signals P 2 = (true, true) ∧
      signals P 3 = (false, true)

/-- R32, I12: bits `len..15` of a mask are never used: two entries that agree below `len` give the same signals
at every step. -/
def Obligations.MaskBitsAboveLengthAreUnused : Prop :=
  ∀ (P Q : ProgEntry) (n : BitVec 8), P.len = Q.len → n.toNat < P.len.toNat →
    (∀ k < P.len.toNat, P.seq0.getLsbD k = Q.seq0.getLsbD k ∧ P.seq1.getLsbD k = Q.seq1.getLsbD k) →
      signals P n = signals Q n ∧
        signals P n = (P.seq0.getLsbD (P.len.toNat - n.toNat - 1), P.seq1.getLsbD (P.len.toNat - n.toNat - 1))

/-- R108: the Manual path, in a pass without a command: button 0's rising edge enters OneShot, button 1's steps
and pushes; both may act in one pass. -/
def Obligations.ManualPathFollowsTheButtons : Prop :=
  ∀ (s : State) (P : ProgEntry),
    s.ports.rst = false → s.ports.cmdValid = false → s.legal = true → s.seq.curProg ≠ 0 →
      progRead s.cfg s.seq.curProg.toNat = some P → s.seq.mode = .manual →
        ∃ t, step s = .next t ∧
          t.seq =
            { s.seq with
              mode := if t.btn.u0.stateChanged && t.btn.u0.state then .oneShot else .manual
              nextTick := if t.btn.u0.stateChanged && t.btn.u0.state then s.ports.tick else s.seq.nextTick
              step :=
                if t.btn.u1.stateChanged && t.btn.u1.state then
                  BitVec.ofNat 8 ((s.seq.step.toNat + 1) % P.len.toNat)
                else s.seq.step } ∧
          t.clk =
            if t.btn.u1.stateChanged && t.btn.u1.state then
              ⟨{ s.clk.u0 with state := (signals P t.seq.step).1 },
               { s.clk.u1 with state := (signals P t.seq.step).2 }⟩
            else s.clk

/-- R109: the timed path, in a pass without a command: when the deadline has passed the step advances modulo
`len`, a OneShot that wraps returns to Manual, the deadline advances from its old value and the new step's
signals are pushed; otherwise nothing moves. -/
def Obligations.TimedPathSteps : Prop :=
  ∀ (s : State) (P : ProgEntry),
    s.ports.rst = false → s.ports.cmdValid = false → s.legal = true → s.seq.curProg ≠ 0 →
      progRead s.cfg s.seq.curProg.toNat = some P → s.seq.mode ≠ .manual →
        ∃ t, step s = .next t ∧
          (s.seq.nextTick < s.ports.tick →
            t.seq =
              { s.seq with
                step := BitVec.ofNat 8 ((s.seq.step.toNat + 1) % P.len.toNat)
                mode :=
                  if s.seq.mode = .oneShot ∧ (s.seq.step.toNat + 1) % P.len.toNat = 0 then .manual
                  else s.seq.mode
                nextTick := s.seq.nextTick + s.seq.ticksPerStep } ∧
            t.clk =
              ⟨{ s.clk.u0 with state := (signals P t.seq.step).1 },
               { s.clk.u1 with state := (signals P t.seq.step).2 }⟩) ∧
          (¬ s.seq.nextTick < s.ports.tick → t.seq = s.seq ∧ t.clk = s.clk)

/-- R109, 90_conflicts.md C8: a OneShot entered at step `k` makes `len - k` steps, one in each pass that finds
its deadline passed, pushing each step's signals; after the last it is in Manual at step 0. -/
def Obligations.OneShotEndsAtTheWrap : Prop :=
  ∀ (s : State) (P : ProgEntry) (ps : List InPorts),
    s.legal = true → s.seq.curProg ≠ 0 → progRead s.cfg s.seq.curProg.toNat = some P →
      s.seq.mode = .oneShot → (∀ p ∈ ps, quiet p = true) →
      dueEvery (fun u => u.seq.nextTick) ps s = true →
      ps.length = P.len.toNat - s.seq.step.toNat →
        (∃ t, runOn ps s = .next t ∧ t.seq.mode = .manual ∧ t.seq.step = 0 ∧
          (t.clk.u0.state, t.clk.u1.state) = signals P 0) ∧
          ∀ (j : Nat) (u : State), j + 1 < ps.length → (traceOn ps s)[j]? = some u →
            u.seq.mode = .oneShot ∧ u.seq.step.toNat = s.seq.step.toNat + j + 1 ∧
              (u.clk.u0.state, u.clk.u1.state) = signals P u.seq.step

/-- R109, S5: in Auto mode the sequence loops: after `n` passes that each find the deadline passed the step has
advanced by `n` modulo `len`, the mode is still Auto, and the lines show that step's signals. -/
def Obligations.AutoLoopsThroughTheSequence : Prop :=
  ∀ (s : State) (P : ProgEntry) (ps : List InPorts),
    s.legal = true → s.seq.curProg ≠ 0 → progRead s.cfg s.seq.curProg.toNat = some P →
      s.seq.mode = .auto → (∀ p ∈ ps, quiet p = true) →
      dueEvery (fun u => u.seq.nextTick) ps s = true → ps ≠ [] →
        ∃ t, runOn ps s = .next t ∧ t.seq.mode = .auto ∧
          t.seq.step.toNat = (s.seq.step.toNat + ps.length) % P.len.toNat ∧
          (t.clk.u0.state, t.clk.u1.state) = signals P t.seq.step

/-- R113: "No other event changes `seq.mode`": in a pass without reset the mode changes only by an accepted PSEL,
by PAUTO, by button 0's rising edge in Manual under a Program, or by a OneShot's wrap. -/
def Obligations.ModeChangesOnlyByItsEvents : Prop :=
  ∀ s t : State, s.ports.rst = false → step s = .next t → t.seq.mode ≠ s.seq.mode →
    (s.ports.cmdValid = true ∧ ∃ n, decode s.ports.cmd = .ok (.psel n) ∧ n.toNat < progCount s.cfg) ∨
      (s.ports.cmdValid = true ∧ decode s.ports.cmd = .ok .pauto) ∨
      (s.seq.curProg ≠ 0 ∧ s.seq.mode = .manual ∧ t.seq.mode = .oneShot ∧ t.seq.nextTick = s.ports.tick ∧
        t.btn.u0.stateChanged = true ∧ t.btn.u0.state = true) ∨
      (s.seq.curProg ≠ 0 ∧ s.seq.mode = .oneShot ∧ t.seq.mode = .manual ∧ t.seq.step = 0 ∧
        s.seq.nextTick < s.ports.tick)

/-! ### The OutputChannels (43_output_channel.md) -/

/-- R85: OUT.UPDATE, in a pass without a command, case by case. -/
def Obligations.TransmitterActsByItsState : Prop :=
  ∀ (s : State) (ch : Fin 4),
    s.ports.rst = false → s.ports.cmdValid = false → s.legal = true →
      ∃ t, step s = .next t ∧
        ((Four.get s.out ch).st = .idle → Four.get t.out ch = Four.get s.out ch) ∧
        (¬ (Four.get s.out ch).nextTick < s.ports.tick → Four.get t.out ch = Four.get s.out ch) ∧
        ((Four.get s.out ch).nextTick < s.ports.tick → (Four.get s.out ch).st = .pause →
          Four.get t.out ch =
            { Four.get s.out ch with
              nextTick := s.ports.tick + s.cfg.outputTickInterval.setWidth 64
              st := .dataSet
              bit := if (Four.get s.out ch).last then (Four.get s.out ch).bit else (Four.get s.out ch).bit + 1
              dataPin :=
                (Four.get s.out ch).data.getLsbD
                  (if (Four.get s.out ch).reverse then
                    15 - (if (Four.get s.out ch).last then 15 else (Four.get s.out ch).bit.toNat)
                  else if (Four.get s.out ch).last then 15 else (Four.get s.out ch).bit.toNat) }) ∧
        ((Four.get s.out ch).nextTick < s.ports.tick → (Four.get s.out ch).st = .dataSet →
          Four.get t.out ch =
            { Four.get s.out ch with
              nextTick := s.ports.tick + s.cfg.outputTickInterval.setWidth 64
              st := .enableSet
              enablePin := true }) ∧
        ((Four.get s.out ch).nextTick < s.ports.tick → (Four.get s.out ch).st = .enableSet →
          Four.get t.out ch =
            { Four.get s.out ch with
              nextTick := s.ports.tick + s.cfg.outputTickInterval.setWidth 64
              enablePin := false
              last := (Four.get s.out ch).last || decide ((Four.get s.out ch).bit.toNat = 16)
              st :=
                if (Four.get s.out ch).bit.toNat = 16 ∧ (Four.get s.out ch).last = true then .idle
                else .pause })

/-- R85, S2: from a restarted channel, 51 passes that each find its deadline passed are 17 slots of three
actions: the data pin takes bit `i` of the payload (bit `15 - i` in reversed order), the enable pin rises and
falls; slot 16 repeats slot 15; then the channel is Idle. -/
def Obligations.TransmissionSendsEveryBitThenFlushes : Prop :=
  ∀ (s : State) (ch : Fin 4) (ps : List InPorts),
    s.legal = true → (Four.get s.out ch).st = .pause → (Four.get s.out ch).bit = 0 →
      (Four.get s.out ch).last = false → (∀ p ∈ ps, quiet p = true) →
      dueEvery (fun u => (Four.get u.out ch).nextTick) ps s = true → ps.length = 51 →
        (∀ i ≤ 16, ∃ a b c : State,
          (traceOn ps s)[3 * i]? = some a ∧ (traceOn ps s)[3 * i + 1]? = some b ∧
            (traceOn ps s)[3 * i + 2]? = some c ∧
            (∀ u ∈ [a, b, c], (Four.get u.out ch).dataPin =
              (Four.get s.out ch).data.getLsbD
                (if (Four.get s.out ch).reverse then 15 - min i 15 else min i 15)) ∧
            (Four.get a.out ch).enablePin = (if i = 0 then (Four.get s.out ch).enablePin else false) ∧
            (Four.get b.out ch).enablePin = true ∧ (Four.get c.out ch).enablePin = false) ∧
          ∃ t, runOn ps s = .next t ∧ (Four.get t.out ch).st = .idle ∧ (Four.get t.out ch).bit = 16 ∧
            (Four.get t.out ch).last = true

/-- R138: OSET taken while the enable pin is high in EnableSet: the pin stays high through the Pause and DataSet
actions of the new slot 0 and falls at its EnableSet action, so that slot 0 has no rising edge. -/
def Obligations.PreemptedTransmissionHasNoFirstEdge : Prop :=
  ∀ (s u : State) (ch : Fin 4) (v : BitVec 16) (p p1 p2 p3 : InPorts),
    (Four.get s.out ch).st = .enableSet → (Four.get s.out ch).enablePin = true →
      p.rst = false → p.cmdValid = true → decode p.cmd = .ok (.oset (BitVec.ofNat 8 ch.val) v) →
      passOn p s = .next u → (∀ r ∈ [p1, p2, p3], quiet r = true) →
      dueEvery (fun x => (Four.get x.out ch).nextTick) [p1, p2, p3] u = true →
        (Four.get u.out ch).enablePin = true ∧
          ∃ a b c, traceOn [p1, p2, p3] u = [a, b, c] ∧ (Four.get a.out ch).enablePin = true ∧
            (Four.get a.out ch).dataPin = v.getLsbD (if (Four.get s.out ch).reverse then 15 else 0) ∧
            (Four.get b.out ch).enablePin = true ∧ (Four.get c.out ch).enablePin = false

/-! ### The InputChannel (44_input_channel.md) -/

/-- R95: IN.UPDATE, in a pass without a command, case by case. -/
def Obligations.ReceiverActsByItsState : Prop :=
  ∀ s : State,
    s.ports.rst = false → s.ports.cmdValid = false → s.legal = true →
      ∃ t, step s = .next t ∧
        (¬ s.inp.nextTick < s.ports.tick → t.inp = s.inp) ∧
        (s.inp.nextTick < s.ports.tick →
          t.inp.nextTick = s.ports.tick + s.cfg.inputTickInterval.setWidth 64 ∧
          (s.inp.st = .idle →
            t.inp =
              { s.inp with
                nextTick := t.inp.nextTick, loadPin := true, shiftPin := false, clockPin := false,
                st := .loadingData }) ∧
          (s.inp.st = .loadingData →
            t.inp =
              { s.inp with
                nextTick := t.inp.nextTick, loadPin := false, shiftPin := true, st := .serialShiftOff }) ∧
          (s.inp.st = .shiftClockOn →
            t.inp = { s.inp with nextTick := t.inp.nextTick, clockPin := true, st := .serialShiftOff }) ∧
          (s.inp.st = .serialShiftOff →
            t.inp.tempData = (s.inp.tempData <<< 1) ||| (BitVec.ofBool s.ports.inData).setWidth 16 ∧
              t.inp.tempMirrored =
                (s.inp.tempMirrored >>> 1) ||| ((BitVec.ofBool s.ports.inData).setWidth 16 <<< 15) ∧
              (s.inp.bitCount.toNat < 15 →
                t.inp =
                  { s.inp with
                    nextTick := t.inp.nextTick, clockPin := false, tempData := t.inp.tempData,
                    tempMirrored := t.inp.tempMirrored, bitCount := s.inp.bitCount + 1,
                    st := .shiftClockOn }) ∧
              (s.inp.bitCount.toNat = 15 →
                t.inp =
                  { s.inp with
                    nextTick := t.inp.nextTick, clockPin := false, tempData := t.inp.tempData,
                    tempMirrored := t.inp.tempMirrored, bitCount := 0, data := t.inp.tempData,
                    dataMirrored := t.inp.tempMirrored,
                    dataChanged := decide (t.inp.tempData ≠ s.inp.data), st := .idle })))

/-- R95, R34, S3: from Idle, 33 passes that each find the deadline passed read one word: with `b_k` the data-in
level of pass `2k + 2`, `data[15-k] = b_k`, `data_mirrored[k] = b_k`, and `data_changed` tells whether the word
differs from the one before. -/
def Obligations.ReceiverPublishesTheSampledWord : Prop :=
  ∀ (s : State) (ps : List InPorts),
    s.legal = true → s.inp.st = .idle → s.inp.bitCount = 0 → (∀ p ∈ ps, quiet p = true) →
      dueEvery (fun u => u.inp.nextTick) ps s = true → ps.length = 33 →
        ∃ t, runOn ps s = .next t ∧ t.inp.st = .idle ∧ t.inp.bitCount = 0 ∧
          (∀ k < 16, ∀ p, ps[2 * k + 2]? = some p →
            t.inp.data.getLsbD (15 - k) = p.inData ∧ t.inp.dataMirrored.getLsbD k = p.inData) ∧
          (t.inp.dataChanged = true ↔ t.inp.data ≠ s.inp.data)

/-! ### The whole machine -/

/-- R133, R147: a pass with neither reset nor command in which none of the ten deadlines has passed changes
nothing, but that the one-pass flags of the Buttons go down (R70 (a)). -/
def Obligations.NothingDueNothingChanges : Prop :=
  ∀ s : State,
    quiet s.ports = true → s.legal = true →
      (∀ i, ¬ (Two.get s.btn i).nextTick < s.ports.tick ∧ ¬ (Two.get s.clk i).nextTick < s.ports.tick) →
      (∀ ch, ¬ (Four.get s.out ch).nextTick < s.ports.tick) →
      ¬ s.inp.nextTick < s.ports.tick → ¬ s.seq.nextTick < s.ports.tick →
        step s =
          .next
            ({ s with
              btn := ⟨{ s.btn.u0 with stateChanged := false },
                      { s.btn.u1 with stateChanged := false }⟩ } : State).nextEdge

/-- R149, I13: a button pin matters only in a pass that samples it, and the data-in pin only in a pass that
performs a SerialShiftOff action. -/
def Obligations.UnsampledPinsAreIgnored : Prop :=
  ∀ (s : State) (pins : Two Bool) (d : Bool),
    (∀ i, (Two.get s.btn i).nextTick < s.ports.tick → Two.get pins i = Two.get s.ports.btnIn i) →
      (s.inp.st = .serialShiftOff → s.inp.nextTick < s.ports.tick → d = s.ports.inData) →
        step { s with ports := { s.ports with btnIn := pins, inData := d } } = step s

/-- R88, R97, R22: what a channel or the receiver does in a pass depends on its own registers, the parameters and
the inputs, and on nothing else of the state. -/
def Obligations.ChannelsAndReceiverAreIndependent : Prop :=
  ∀ s s' t t' : State, s'.cfg = s.cfg → s'.ports = s.ports → step s = .next t → step s' = .next t' →
    (∀ ch, Four.get s'.out ch = Four.get s.out ch → Four.get t'.out ch = Four.get t.out ch) ∧
      (s'.inp = s.inp → t'.inp = t.inp) ∧
      ∀ i, Two.get s'.btn i = Two.get s.btn i → Two.get t'.btn i = Two.get t.btn i

/-- R42, R27: no run changes the parameters or an entry of the Program table. -/
def Obligations.ProgramTableNeverChanges : Prop :=
  ∀ (ps : List InPorts) (s t : State), runOn ps s = .next t →
    t.cfg = s.cfg ∧ ∀ n, progRead t.cfg n = progRead s.cfg n

/-- R31, R38: `ProgRead` answers below `prog_count` and nowhere else; entry 0 is the sentinel; the table has 1 to
`MAX_PROGRAMS` entries, each with a length in 1..16 (R15). -/
def Obligations.ProgReadAnswersInsideTheTable : Prop :=
  ∀ (c : Config) (n : Nat),
    ((∃ P, progRead c n = some P) ↔ n < progCount c) ∧ progRead c 0 = some c.sentinel ∧ 1 ≤ progCount c ∧
      progCount c ≤ c.maxPrograms ∧ c.maxPrograms ≤ 256 ∧
      ∀ P, progRead c n = some P → 1 ≤ P.len.toNat ∧ P.len.toNat ≤ 16

/-- R61, R66, R120: from a legal state, and from any state under reset, every pass gives a next state, and that
state is legal: no input stops the core. -/
def Obligations.LegalStatesAlwaysStep : Prop :=
  ∀ s : State, s.ports.rst = true ∨ s.legal = true → ∃ t, step s = .next t ∧ t.legal = true

/-- I11, R31 (the model's choice, notes/assumptions/5.md): the states from which no rule defines behaviour are
refused by name, and these are the states with `bit` above 16 or a slot due with none left, `bit_count` above
15, `cur_prog` at or above `prog_count`, or `step` at or above the active length. -/
def Obligations.UnreachableStatesAreRefused : Prop :=
  ∀ s : State,
    (s.ports.rst = false → s.legal = false → step s = .refused .unreachableState) ∧
      (s.legal = true ↔
        (∀ ch, (Four.get s.out ch).bit.toNat ≤ 16 ∧
          ((Four.get s.out ch).st = .pause → (Four.get s.out ch).last = false →
            (Four.get s.out ch).bit.toNat < 16)) ∧
          s.inp.bitCount.toNat ≤ 15 ∧
          ∃ P, progRead s.cfg s.seq.curProg.toNat = some P ∧ s.seq.step.toNat < P.len.toNat) ∧
      ∀ f : BitVec 16, f ≠ 0 → progRead s.cfg s.seq.curProg.toNat = none →
        exec (.pfreq f) s = .refused .unreachableState

/-- R11 to R16, R20: every step keeps the invariant of the registers, whatever the inputs. -/
def Obligations.EveryStepKeepsTheInvariant : Prop :=
  ∀ s t : State, s.Inv → step s = .next t → t.Inv

/-- R26, R135, R20: the state after reset has the invariant, for every legal configuration and every `T0`. -/
def Obligations.ResetHasTheInvariant : Prop :=
  State.reset.Inv ∧
    ∀ (c : Config) (t0 : Tick) (p : InPorts) (ps : List InPorts) (n : Nat),
      (State.afterReset c t0 p ps n).Inv

/-- R24, R25, R52, R81: the output ports of a state, each unit's; the modes with their tags. -/
def Obligations.OutputPortsShowTheRegisters : Prop :=
  ∀ s : State,
    (∀ i, Two.get s.outPorts.clkOut i = (Two.get s.clk i).state ∧
      Two.get s.outPorts.btnState i = (Two.get s.btn i).state ∧
      Two.get s.outPorts.btnChanged i = (Two.get s.btn i).stateChanged ∧
      Two.get s.outPorts.clkFreq i = (Two.get s.clk i).freq ∧
      Two.get s.outPorts.clkMode i = (if (Two.get s.clk i).mode = .manual then 0 else 1)) ∧
      (∀ ch, Four.get s.outPorts.outData ch = (Four.get s.out ch).dataPin ∧
        Four.get s.outPorts.outEnable ch = (Four.get s.out ch).enablePin ∧
        Four.get s.outPorts.outReversed ch = (Four.get s.out ch).reverse) ∧
      (s.outPorts.inLoad, s.outPorts.inShift, s.outPorts.inClock) =
        (s.inp.loadPin, s.inp.shiftPin, s.inp.clockPin) ∧
      (s.outPorts.inWord, s.outPorts.inWordMirrored, s.outPorts.inChanged) =
        (s.inp.data, s.inp.dataMirrored, s.inp.dataChanged) ∧
      s.outPorts.curProg = s.seq.curProg ∧ s.outPorts.cmdOk = s.cmdOk ∧
      s.outPorts.seqMode = (if s.seq.mode = .manual then 0 else if s.seq.mode = .oneShot then 1 else 2)

/-- R75, R146: under the sentinel, with both Clocks in Auto mode, equal dividers and equal deadlines, a pass
without reset and command keeps all of that, and the lines stay equal or stay opposite. -/
def Obligations.PhaseRelationIsKept : Prop :=
  ∀ s t : State,
    quiet s.ports = true → step s = .next t → s.seq.curProg = 0 → s.clk.u0.mode = .auto →
      s.clk.u1.mode = .auto → s.clk.u0.ticksPerStep = s.clk.u1.ticksPerStep →
      s.clk.u0.nextTick = s.clk.u1.nextTick →
        t.seq.curProg = 0 ∧ t.clk.u0.mode = .auto ∧ t.clk.u1.mode = .auto ∧
          t.clk.u0.ticksPerStep = t.clk.u1.ticksPerStep ∧ t.clk.u0.nextTick = t.clk.u1.nextTick ∧
          (t.clk.u0.state = t.clk.u1.state ↔ s.clk.u0.state = s.clk.u1.state)

/-- R80, R75: under the sentinel, with both Clocks in Auto mode and equal dividers, in the pass that takes CSYNCO
and in every later pass without reset and command that finds clock 1 one divider behind clock 0 on an equal
line: if neither deadline has passed, nothing moves; if clock 0's alone has, the lines become opposite under one
deadline; if both have, both lines toggle together and clock 1 is still one divider behind. -/
def Obligations.OffsetClocksActByTheirDeadlines : Prop :=
  ∀ s t : State,
    s.ports.rst = false → step s = .next t → s.seq.curProg = 0 → s.clk.u0.mode = .auto →
      s.clk.u1.mode = .auto → s.clk.u0.ticksPerStep = s.clk.u1.ticksPerStep →
      ((s.ports.cmdValid = true ∧ s.ports.cmd = 0x08000000) ∨
        (s.ports.cmdValid = false ∧ s.clk.u1.state = s.clk.u0.state ∧
          s.clk.u1.nextTick = s.clk.u0.nextTick + s.clk.u0.ticksPerStep)) →
        (¬ s.clk.u0.nextTick < s.ports.tick → ¬ s.clk.u0.nextTick + s.clk.u0.ticksPerStep < s.ports.tick →
          t.clk.u0 = s.clk.u0 ∧ t.clk.u1.state = t.clk.u0.state ∧
            t.clk.u1.nextTick = t.clk.u0.nextTick + t.clk.u0.ticksPerStep) ∧
        (s.clk.u0.nextTick < s.ports.tick → ¬ s.clk.u0.nextTick + s.clk.u0.ticksPerStep < s.ports.tick →
          t.clk.u0.state = (!s.clk.u0.state) ∧ t.clk.u1.state = s.clk.u0.state ∧
            t.clk.u0.nextTick = s.clk.u0.nextTick + s.clk.u0.ticksPerStep ∧
            t.clk.u1.nextTick = t.clk.u0.nextTick) ∧
        (s.clk.u0.nextTick < s.ports.tick → s.clk.u0.nextTick + s.clk.u0.ticksPerStep < s.ports.tick →
          t.clk.u0.state = (!s.clk.u0.state) ∧ t.clk.u1.state = t.clk.u0.state ∧
            t.clk.u0.nextTick = s.clk.u0.nextTick + s.clk.u0.ticksPerStep ∧
            t.clk.u1.nextTick = t.clk.u0.nextTick + t.clk.u0.ticksPerStep)

/-! ### The notation (30_encoding.md R53, R54) -/

/-- R54 (b), R38, R123: the `PROG` entries of a text fill the table in order from index 0; an empty table and one
above `MAX_PROGRAMS` are no configuration; no other parameter changes. -/
def Obligations.EntryDirectivesFillTheTable : Prop :=
  ∀ (c : Config) (lines : List AsmLine),
    (∀ d, configWithTable c (assembledTable lines) = some d →
      (∀ n, progRead d n = (assembledTable lines)[n]?) ∧ progCount d = (assembledTable lines).length ∧
        ∃ h, d = { c with sentinel := d.sentinel, programs := d.programs, table_le := h }) ∧
      (configWithTable c (assembledTable lines) = none ↔
        assembledTable lines = [] ∨ c.maxPrograms < (assembledTable lines).length) ∧
      ∀ (P : ProgEntry) (more : List AsmLine),
        assembledTable (lines ++ .entry P :: more) = assembledTable lines ++ P :: assembledTable more

/-- R54 (a): a frequency in Hz is `X.Y`, `X` a decimal numeral and `Y` one decimal digit, and stands for `10*X + Y`
tenths of Hz, where that is a 16-bit operand (R53); anything else is refused. -/
def Obligations.HzOperandsHaveOneDecimalDigit : Prop :=
  ∀ (cs : List Char) (f : BitVec 16),
    asmHz cs = some f ↔
      ∃ (xs : List Char) (y : Char) (x d : Nat),
        cs = xs ++ ['.', y] ∧ digits 10 xs = some x ∧ digitOf 10 y = some d ∧ 10 * x + d < 65536 ∧
          f = BitVec.ofNat 16 (10 * x + d)
end

