-- ==== Sys2Proof/Laws/State.lean ====
section
/-! SUPPORT. One lemma per field per update of the state, so that no later proof unfolds a record update. -/

namespace Sys2Proof.Machine

variable {α : Type}

@[simp] theorem Two.get_set_self (t : Two α) (i : Fin 2) (a : α) : Two.get (Two.set t i a) i = a := by
  fin_cases i <;> rfl

theorem Two.get_set_of_ne (t : Two α) (i j : Fin 2) (a : α) (h : j ≠ i) :
    Two.get (Two.set t i a) j = Two.get t j := by
  fin_cases i <;> fin_cases j <;> first | rfl | exact absurd rfl h

@[simp] theorem Two.get_zero (t : Two α) : Two.get t 0 = t.u0 := rfl
@[simp] theorem Two.get_one (t : Two α) : Two.get t 1 = t.u1 := rfl
@[simp] theorem Two.set_zero (t : Two α) (a : α) : Two.set t 0 a = { t with u0 := a } := rfl
@[simp] theorem Two.set_one (t : Two α) (a : α) : Two.set t 1 a = { t with u1 := a } := rfl

@[simp] theorem Four.get_set_self (t : Four α) (i : Fin 4) (a : α) : Four.get (Four.set t i a) i = a := by
  fin_cases i <;> rfl

theorem Four.get_set_of_ne (t : Four α) (i j : Fin 4) (a : α) (h : j ≠ i) :
    Four.get (Four.set t i a) j = Four.get t j := by
  fin_cases i <;> fin_cases j <;> first | rfl | exact absurd rfl h

@[simp] theorem Four.get_zero (t : Four α) : Four.get t 0 = t.u0 := rfl
@[simp] theorem Four.get_one (t : Four α) : Four.get t 1 = t.u1 := rfl
@[simp] theorem Four.get_two (t : Four α) : Four.get t 2 = t.u2 := rfl
@[simp] theorem Four.get_three (t : Four α) : Four.get t 3 = t.u3 := rfl

/-- Two banks of two with equal units are equal. -/
theorem Two.ext_get {t u : Two α} (h : ∀ i, Two.get t i = Two.get u i) : t = u := by
  cases t; cases u
  exact (Two.mk.injEq ..).mpr ⟨h 0, h 1⟩

/-- Two banks of four with equal units are equal. -/
theorem Four.ext_get {t u : Four α} (h : ∀ i, Four.get t i = Four.get u i) : t = u := by
  cases t; cases u
  exact (Four.mk.injEq ..).mpr ⟨h 0, h 1, h 2, h 3⟩

@[simp] theorem State.setBtn_cfg (s : State) (i : Fin 2) (b : Button) : (s.setBtn i b).cfg = s.cfg := rfl
@[simp] theorem State.setBtn_btn (s : State) (i : Fin 2) (b : Button) : (s.setBtn i b).btn = Two.set s.btn i b := rfl
@[simp] theorem State.setBtn_clk (s : State) (i : Fin 2) (b : Button) : (s.setBtn i b).clk = s.clk := rfl
@[simp] theorem State.setBtn_out (s : State) (i : Fin 2) (b : Button) : (s.setBtn i b).out = s.out := rfl
@[simp] theorem State.setBtn_inp (s : State) (i : Fin 2) (b : Button) : (s.setBtn i b).inp = s.inp := rfl
@[simp] theorem State.setBtn_seq (s : State) (i : Fin 2) (b : Button) : (s.setBtn i b).seq = s.seq := rfl
@[simp] theorem State.setBtn_cmdOk (s : State) (i : Fin 2) (b : Button) : (s.setBtn i b).cmdOk = s.cmdOk := rfl
@[simp] theorem State.setBtn_ports (s : State) (i : Fin 2) (b : Button) : (s.setBtn i b).ports = s.ports := rfl
@[simp] theorem State.setBtn_upcoming (s : State) (i : Fin 2) (b : Button) : (s.setBtn i b).upcoming = s.upcoming := rfl
@[simp] theorem State.setBtn_envIndex (s : State) (i : Fin 2) (b : Button) : (s.setBtn i b).envIndex = s.envIndex := rfl

@[simp] theorem State.setClk_cfg (s : State) (i : Fin 2) (c : Clock) : (s.setClk i c).cfg = s.cfg := rfl
@[simp] theorem State.setClk_btn (s : State) (i : Fin 2) (c : Clock) : (s.setClk i c).btn = s.btn := rfl
@[simp] theorem State.setClk_clk (s : State) (i : Fin 2) (c : Clock) : (s.setClk i c).clk = Two.set s.clk i c := rfl
@[simp] theorem State.setClk_out (s : State) (i : Fin 2) (c : Clock) : (s.setClk i c).out = s.out := rfl
@[simp] theorem State.setClk_inp (s : State) (i : Fin 2) (c : Clock) : (s.setClk i c).inp = s.inp := rfl
@[simp] theorem State.setClk_seq (s : State) (i : Fin 2) (c : Clock) : (s.setClk i c).seq = s.seq := rfl
@[simp] theorem State.setClk_cmdOk (s : State) (i : Fin 2) (c : Clock) : (s.setClk i c).cmdOk = s.cmdOk := rfl
@[simp] theorem State.setClk_ports (s : State) (i : Fin 2) (c : Clock) : (s.setClk i c).ports = s.ports := rfl
@[simp] theorem State.setClk_upcoming (s : State) (i : Fin 2) (c : Clock) : (s.setClk i c).upcoming = s.upcoming := rfl
@[simp] theorem State.setClk_envIndex (s : State) (i : Fin 2) (c : Clock) : (s.setClk i c).envIndex = s.envIndex := rfl

@[simp] theorem State.setOut_cfg (s : State) (ch : Fin 4) (o : OutputChannel) : (s.setOut ch o).cfg = s.cfg := rfl
@[simp] theorem State.setOut_btn (s : State) (ch : Fin 4) (o : OutputChannel) : (s.setOut ch o).btn = s.btn := rfl
@[simp] theorem State.setOut_clk (s : State) (ch : Fin 4) (o : OutputChannel) : (s.setOut ch o).clk = s.clk := rfl
@[simp] theorem State.setOut_out (s : State) (ch : Fin 4) (o : OutputChannel) : (s.setOut ch o).out = Four.set s.out ch o := rfl
@[simp] theorem State.setOut_inp (s : State) (ch : Fin 4) (o : OutputChannel) : (s.setOut ch o).inp = s.inp := rfl
@[simp] theorem State.setOut_seq (s : State) (ch : Fin 4) (o : OutputChannel) : (s.setOut ch o).seq = s.seq := rfl
@[simp] theorem State.setOut_cmdOk (s : State) (ch : Fin 4) (o : OutputChannel) : (s.setOut ch o).cmdOk = s.cmdOk := rfl
@[simp] theorem State.setOut_ports (s : State) (ch : Fin 4) (o : OutputChannel) : (s.setOut ch o).ports = s.ports := rfl
@[simp] theorem State.setOut_upcoming (s : State) (ch : Fin 4) (o : OutputChannel) : (s.setOut ch o).upcoming = s.upcoming := rfl
@[simp] theorem State.setOut_envIndex (s : State) (ch : Fin 4) (o : OutputChannel) : (s.setOut ch o).envIndex = s.envIndex := rfl

@[simp] theorem State.setInp_cfg (s : State) (i : InputChannel) : (s.setInp i).cfg = s.cfg := rfl
@[simp] theorem State.setInp_btn (s : State) (i : InputChannel) : (s.setInp i).btn = s.btn := rfl
@[simp] theorem State.setInp_clk (s : State) (i : InputChannel) : (s.setInp i).clk = s.clk := rfl
@[simp] theorem State.setInp_out (s : State) (i : InputChannel) : (s.setInp i).out = s.out := rfl
@[simp] theorem State.setInp_inp (s : State) (i : InputChannel) : (s.setInp i).inp = i := rfl
@[simp] theorem State.setInp_seq (s : State) (i : InputChannel) : (s.setInp i).seq = s.seq := rfl
@[simp] theorem State.setInp_cmdOk (s : State) (i : InputChannel) : (s.setInp i).cmdOk = s.cmdOk := rfl
@[simp] theorem State.setInp_ports (s : State) (i : InputChannel) : (s.setInp i).ports = s.ports := rfl
@[simp] theorem State.setInp_upcoming (s : State) (i : InputChannel) : (s.setInp i).upcoming = s.upcoming := rfl
@[simp] theorem State.setInp_envIndex (s : State) (i : InputChannel) : (s.setInp i).envIndex = s.envIndex := rfl

@[simp] theorem State.setSeq_cfg (s : State) (q : ProgramControl) : (s.setSeq q).cfg = s.cfg := rfl
@[simp] theorem State.setSeq_btn (s : State) (q : ProgramControl) : (s.setSeq q).btn = s.btn := rfl
@[simp] theorem State.setSeq_clk (s : State) (q : ProgramControl) : (s.setSeq q).clk = s.clk := rfl
@[simp] theorem State.setSeq_out (s : State) (q : ProgramControl) : (s.setSeq q).out = s.out := rfl
@[simp] theorem State.setSeq_inp (s : State) (q : ProgramControl) : (s.setSeq q).inp = s.inp := rfl
@[simp] theorem State.setSeq_seq (s : State) (q : ProgramControl) : (s.setSeq q).seq = q := rfl
@[simp] theorem State.setSeq_cmdOk (s : State) (q : ProgramControl) : (s.setSeq q).cmdOk = s.cmdOk := rfl
@[simp] theorem State.setSeq_ports (s : State) (q : ProgramControl) : (s.setSeq q).ports = s.ports := rfl
@[simp] theorem State.setSeq_upcoming (s : State) (q : ProgramControl) : (s.setSeq q).upcoming = s.upcoming := rfl
@[simp] theorem State.setSeq_envIndex (s : State) (q : ProgramControl) : (s.setSeq q).envIndex = s.envIndex := rfl

@[simp] theorem State.setCmdOk_cfg (s : State) (b : Bool) : (s.setCmdOk b).cfg = s.cfg := rfl
@[simp] theorem State.setCmdOk_btn (s : State) (b : Bool) : (s.setCmdOk b).btn = s.btn := rfl
@[simp] theorem State.setCmdOk_clk (s : State) (b : Bool) : (s.setCmdOk b).clk = s.clk := rfl
@[simp] theorem State.setCmdOk_out (s : State) (b : Bool) : (s.setCmdOk b).out = s.out := rfl
@[simp] theorem State.setCmdOk_inp (s : State) (b : Bool) : (s.setCmdOk b).inp = s.inp := rfl
@[simp] theorem State.setCmdOk_seq (s : State) (b : Bool) : (s.setCmdOk b).seq = s.seq := rfl
@[simp] theorem State.setCmdOk_cmdOk (s : State) (b : Bool) : (s.setCmdOk b).cmdOk = b := rfl
@[simp] theorem State.setCmdOk_ports (s : State) (b : Bool) : (s.setCmdOk b).ports = s.ports := rfl
@[simp] theorem State.setCmdOk_upcoming (s : State) (b : Bool) : (s.setCmdOk b).upcoming = s.upcoming := rfl
@[simp] theorem State.setCmdOk_envIndex (s : State) (b : Bool) : (s.setCmdOk b).envIndex = s.envIndex := rfl

@[simp] theorem State.accept_cfg (s : State) : (s.accept).cfg = s.cfg := rfl
@[simp] theorem State.accept_btn (s : State) : (s.accept).btn = s.btn := rfl
@[simp] theorem State.accept_clk (s : State) : (s.accept).clk = s.clk := rfl
@[simp] theorem State.accept_out (s : State) : (s.accept).out = s.out := rfl
@[simp] theorem State.accept_inp (s : State) : (s.accept).inp = s.inp := rfl
@[simp] theorem State.accept_seq (s : State) : (s.accept).seq = s.seq := rfl
@[simp] theorem State.accept_cmdOk (s : State) : (s.accept).cmdOk = true := rfl
@[simp] theorem State.accept_ports (s : State) : (s.accept).ports = s.ports := rfl
@[simp] theorem State.accept_upcoming (s : State) : (s.accept).upcoming = s.upcoming := rfl
@[simp] theorem State.accept_envIndex (s : State) : (s.accept).envIndex = s.envIndex := rfl

@[simp] theorem State.refuse_cfg (s : State) : (s.refuse).cfg = s.cfg := rfl
@[simp] theorem State.refuse_btn (s : State) : (s.refuse).btn = s.btn := rfl
@[simp] theorem State.refuse_clk (s : State) : (s.refuse).clk = s.clk := rfl
@[simp] theorem State.refuse_out (s : State) : (s.refuse).out = s.out := rfl
@[simp] theorem State.refuse_inp (s : State) : (s.refuse).inp = s.inp := rfl
@[simp] theorem State.refuse_seq (s : State) : (s.refuse).seq = s.seq := rfl
@[simp] theorem State.refuse_cmdOk (s : State) : (s.refuse).cmdOk = false := rfl
@[simp] theorem State.refuse_ports (s : State) : (s.refuse).ports = s.ports := rfl
@[simp] theorem State.refuse_upcoming (s : State) : (s.refuse).upcoming = s.upcoming := rfl
@[simp] theorem State.refuse_envIndex (s : State) : (s.refuse).envIndex = s.envIndex := rfl

@[simp] theorem State.now_eq (s : State) : s.now = s.ports.tick := rfl

@[simp] theorem State.afterReset_cfg (c : Config) (t0 : Tick) (p : InPorts) (u : List InPorts) (n : Nat) :
    (State.afterReset c t0 p u n).cfg = c := rfl
@[simp] theorem State.afterReset_btn (c : Config) (t0 : Tick) (p : InPorts) (u : List InPorts) (n : Nat) :
    (State.afterReset c t0 p u n).btn = ⟨buttonReset t0, buttonReset t0⟩ := rfl
@[simp] theorem State.afterReset_out (c : Config) (t0 : Tick) (p : InPorts) (u : List InPorts) (n : Nat) :
    (State.afterReset c t0 p u n).out = ⟨outputReset t0, outputReset t0, outputReset t0, outputReset t0⟩ := rfl
@[simp] theorem State.afterReset_inp (c : Config) (t0 : Tick) (p : InPorts) (u : List InPorts) (n : Nat) :
    (State.afterReset c t0 p u n).inp = inputReset t0 := rfl
@[simp] theorem State.afterReset_seq (c : Config) (t0 : Tick) (p : InPorts) (u : List InPorts) (n : Nat) :
    (State.afterReset c t0 p u n).seq = seqReset c t0 := rfl
@[simp] theorem State.afterReset_cmdOk (c : Config) (t0 : Tick) (p : InPorts) (u : List InPorts) (n : Nat) :
    (State.afterReset c t0 p u n).cmdOk = true := rfl
@[simp] theorem State.afterReset_ports (c : Config) (t0 : Tick) (p : InPorts) (u : List InPorts) (n : Nat) :
    (State.afterReset c t0 p u n).ports = p := rfl
@[simp] theorem State.afterReset_upcoming (c : Config) (t0 : Tick) (p : InPorts) (u : List InPorts) (n : Nat) :
    (State.afterReset c t0 p u n).upcoming = u := rfl
@[simp] theorem State.afterReset_envIndex (c : Config) (t0 : Tick) (p : InPorts) (u : List InPorts) (n : Nat) :
    (State.afterReset c t0 p u n).envIndex = n := rfl
@[simp] theorem State.afterReset_clk (c : Config) (t0 : Tick) (p : InPorts) (u : List InPorts) (n : Nat) :
    (State.afterReset c t0 p u n).clk =
      ⟨clockReset c.tickFreq c.clkFreqReset.u0 t0, clockReset c.tickFreq c.clkFreqReset.u1 t0⟩ := rfl

@[simp] theorem State.nextEdge_cfg (s : State) : s.nextEdge.cfg = s.cfg := by
  unfold State.nextEdge; split <;> rfl
@[simp] theorem State.nextEdge_btn (s : State) : s.nextEdge.btn = s.btn := by
  unfold State.nextEdge; split <;> rfl
@[simp] theorem State.nextEdge_clk (s : State) : s.nextEdge.clk = s.clk := by
  unfold State.nextEdge; split <;> rfl
@[simp] theorem State.nextEdge_out (s : State) : s.nextEdge.out = s.out := by
  unfold State.nextEdge; split <;> rfl
@[simp] theorem State.nextEdge_inp (s : State) : s.nextEdge.inp = s.inp := by
  unfold State.nextEdge; split <;> rfl
@[simp] theorem State.nextEdge_seq (s : State) : s.nextEdge.seq = s.seq := by
  unfold State.nextEdge; split <;> rfl
@[simp] theorem State.nextEdge_cmdOk (s : State) : s.nextEdge.cmdOk = s.cmdOk := by
  unfold State.nextEdge; split <;> rfl

end Sys2Proof.Machine
end

