-- ==== Sys2Proof/Laws/Ops.lean ====
section
/-! SUPPORT. What each shared operation can do, said once: the lemmas a proof cites instead of unfolding the
operation. -/

namespace Sys2Proof.Machine

/-! ### Operands -/

theorem unitOf_of_lt {n : Nat} {idx : BitVec 8} (h : idx.toNat < n) : unitOf n idx = some ⟨idx.toNat, h⟩ :=
  dif_pos h

theorem unitOf_of_ge {n : Nat} {idx : BitVec 8} (h : n ≤ idx.toNat) : unitOf n idx = none :=
  dif_neg (Nat.not_lt.mpr h)

theorem unitOf_eq_some {n : Nat} {idx : BitVec 8} {k : Fin n} : unitOf n idx = some k ↔ idx.toNat = k.val := by
  unfold unitOf
  split
  · rw [Option.some.injEq, Fin.ext_iff]
  · rename_i h
    simp only [reduceCtorEq, false_iff]
    exact fun e => h (e ▸ k.isLt)

theorem deadlinePassed_iff {now t : Tick} : deadlinePassed now t = true ↔ t < now := by
  simp [deadlinePassed]

theorem deadlinePassed_eq_false {now t : Tick} : deadlinePassed now t = false ↔ ¬ t < now := by
  simp [deadlinePassed]

theorem nextStep_lt (step : BitVec 8) (P : ProgEntry) : (nextStep step P).toNat < P.len.toNat := by
  have h := Nat.mod_lt (step.toNat + 1) P.len_pos
  have := P.len_le
  simp only [nextStep, BitVec.toNat_ofNat]
  exact lt_of_le_of_lt (Nat.mod_le _ _) h

theorem nextStep_toNat (step : BitVec 8) (P : ProgEntry) :
    (nextStep step P).toNat = (step.toNat + 1) % P.len.toNat := by
  have h := Nat.mod_lt (step.toNat + 1) P.len_pos
  have := P.len_le
  simp only [nextStep, BitVec.toNat_ofNat]
  exact Nat.mod_eq_of_lt (by omega)

/-! ### The Program table -/

theorem progCount_eq (c : Config) : progCount c = c.programs.length + 1 := rfl

theorem progCount_le (c : Config) : progCount c ≤ 256 := by
  have := c.table_le; have := c.max_le
  rw [progCount_eq]; omega

theorem progRead_isSome {c : Config} {i : Nat} : (progRead c i).isSome = true ↔ i < progCount c := by
  simp [progRead, progCount]

theorem progRead_eq_none {c : Config} {i : Nat} : progRead c i = none ↔ progCount c ≤ i := by
  simp [progRead, progCount]

@[simp] theorem progRead_zero (c : Config) : progRead c 0 = some c.sentinel := rfl

/-- A legal position is inside the table and inside the active Program (R16). -/
theorem seqLegal_iff {c : Config} {q : ProgramControl} :
    seqLegal c q = true ↔ ∃ P, progRead c q.curProg.toNat = some P ∧ q.step.toNat < P.len.toNat := by
  unfold seqLegal
  split
  · rename_i P hP
    have hp := P.len_pos
    constructor
    · intro h
      refine ⟨P, hP, ?_⟩
      rcases Bool.or_eq_true _ _ |>.mp h with h | h
      · rw [beq_iff_eq] at h; simp [h, hp]
      · exact of_decide_eq_true h
    · rintro ⟨Q, hQ, h⟩
      cases hP.symm.trans hQ
      simp [h]
  · rename_i hn
    simp [hn]

theorem State.legal_iff {s : State} :
    s.legal = true ↔
      (∀ ch, outputLegal (Four.get s.out ch) = true) ∧ inputLegal s.inp = true ∧ seqLegal s.cfg s.seq = true := by
  simp only [State.legal, Bool.and_eq_true, and_assoc]
  constructor
  · rintro ⟨h0, h1, h2, h3, hi, hs⟩
    refine ⟨fun ch => ?_, hi, hs⟩
    fin_cases ch <;> assumption
  · rintro ⟨h, hi, hs⟩
    exact ⟨h 0, h 1, h 2, h 3, hi, hs⟩

/-! ### Unit updates -/

theorem buttonUpdate_waits {v : BitVec 32} {now : Tick} {pin : Bool} {b : Button} (h : ¬ b.nextTick < now) :
    buttonUpdate v now pin b = { b with stateChanged := false } := by
  simp [buttonUpdate, deadlinePassed, h]

theorem buttonUpdate_samples {v : BitVec 32} {now : Tick} {pin : Bool} {b : Button} (h : b.nextTick < now) :
    buttonUpdate v now pin b =
      { reg := shiftSample b.reg pin, state := debounced (shiftSample b.reg pin) b.state,
        stateChanged := flipped b.state (debounced (shiftSample b.reg pin) b.state),
        nextTick := afterInterval b.nextTick v } := by
  simp [buttonUpdate, deadlinePassed, h]

theorem outputUpdate_idle {v : BitVec 32} {now : Tick} {o : OutputChannel} (h : o.st = .idle) :
    outputUpdate v now o = o := by
  simp [outputUpdate, h]

theorem outputUpdate_waits {v : BitVec 32} {now : Tick} {o : OutputChannel} (h : ¬ o.nextTick < now) :
    outputUpdate v now o = o := by
  simp [outputUpdate, deadlinePassed, h]

theorem outputUpdate_acts {v : BitVec 32} {now : Tick} {o : OutputChannel} (hs : o.st ≠ .idle)
    (h : o.nextTick < now) :
    outputUpdate v now o = { outputAction o with nextTick := afterInterval now v } := by
  simp [outputUpdate, deadlinePassed, hs, h]

theorem inputUpdate_waits {v : BitVec 32} {now : Tick} {pin : Bool} {i : InputChannel} (h : ¬ i.nextTick < now) :
    inputUpdate v now pin i = i := by
  simp [inputUpdate, deadlinePassed, h]

theorem inputUpdate_acts {v : BitVec 32} {now : Tick} {pin : Bool} {i : InputChannel} (h : i.nextTick < now) :
    inputUpdate v now pin i = { inputAction pin i with nextTick := afterInterval now v } := by
  simp [inputUpdate, deadlinePassed, h]

theorem clockUpdate_manual {now : Tick} {b : Button} {c : Clock} (h : c.mode = .manual) :
    clockUpdate now b c = if b.stateChanged then { c with state := b.state } else c := by
  simp [clockUpdate, h]

theorem clockUpdate_auto {now : Tick} {b : Button} {c : Clock} (h : c.mode = .auto) :
    clockUpdate now b c =
      if c.nextTick < now then { c with state := !c.state, nextTick := c.nextTick + c.ticksPerStep } else c := by
  simp [clockUpdate, deadlinePassed, h]

@[simp] theorem clockUpdate_mode (now : Tick) (b : Button) (c : Clock) : (clockUpdate now b c).mode = c.mode := by
  unfold clockUpdate; split <;> split <;> rfl

@[simp] theorem clockUpdate_freq (now : Tick) (b : Button) (c : Clock) : (clockUpdate now b c).freq = c.freq := by
  unfold clockUpdate; split <;> split <;> rfl

@[simp] theorem clockUpdate_ticksPerStep (now : Tick) (b : Button) (c : Clock) :
    (clockUpdate now b c).ticksPerStep = c.ticksPerStep := by
  unfold clockUpdate; split <;> split <;> rfl

/-! ### The sequencer -/

/-- A push writes the two lines and nothing else (R106, R76). -/
theorem State.push_eq (s : State) (P : ProgEntry) (step : BitVec 8) :
    s.push P step =
      { s with
        clk := ⟨{ s.clk.u0 with state := (signals P step).1 }, { s.clk.u1 with state := (signals P step).2 }⟩ } :=
  rfl

/-- A step writes `step` and the two lines (R108, R109). -/
theorem State.advanceStep_eq (s : State) (P : ProgEntry) :
    s.advanceStep P =
      { s with
        seq := { s.seq with step := nextStep s.seq.step P }
        clk := ⟨{ s.clk.u0 with state := (signals P (nextStep s.seq.step P)).1 },
                { s.clk.u1 with state := (signals P (nextStep s.seq.step P)).2 }⟩ } :=
  rfl

theorem State.seqTimed_waits {s : State} {P : ProgEntry} (h : ¬ s.seq.nextTick < s.ports.tick) :
    s.seqTimed P = s := by
  simp [State.seqTimed, deadlinePassed, h]

/-- A timed step (R109). -/
theorem State.seqTimed_steps {s : State} {P : ProgEntry} (h : s.seq.nextTick < s.ports.tick) :
    s.seqTimed P =
      { s with
        seq :=
          { s.seq with
            mode := modeAfterStep s.seq.mode (nextStep s.seq.step P)
            step := nextStep s.seq.step P
            nextTick := s.seq.nextTick + s.seq.ticksPerStep }
        clk := ⟨{ s.clk.u0 with state := (signals P (nextStep s.seq.step P)).1 },
                { s.clk.u1 with state := (signals P (nextStep s.seq.step P)).2 }⟩ } := by
  simp [State.seqTimed, deadlinePassed, h, State.advanceStep_eq, State.setSeq]

/-- The Manual path writes the sequencer's mode, deadline and step and the two lines, and nothing else
(R108). -/
theorem State.seqManual_eq (s : State) (P : ProgEntry) :
    s.seqManual P =
      { s with
        seq :=
          { s.seq with
            mode := if risingEdge s.btn.u0 then .oneShot else s.seq.mode
            nextTick := if risingEdge s.btn.u0 then s.ports.tick else s.seq.nextTick
            step := if risingEdge s.btn.u1 then nextStep s.seq.step P else s.seq.step }
        clk :=
          if risingEdge s.btn.u1 then
            ⟨{ s.clk.u0 with state := (signals P (nextStep s.seq.step P)).1 },
             { s.clk.u1 with state := (signals P (nextStep s.seq.step P)).2 }⟩
          else s.clk } := by
  unfold State.seqManual State.enterOneShot
  simp only [Two.get_zero, Two.get_one]
  by_cases h0 : risingEdge s.btn.u0 = true <;> by_cases h1 : risingEdge s.btn.u1 = true <;>
    simp only [h0, h1, if_true, if_false, Bool.false_eq_true] <;> rfl

/-- The timed path writes the sequencer's registers and the two lines, and nothing else (R109). -/
theorem State.seqTimed_eq (s : State) (P : ProgEntry) :
    s.seqTimed P =
      { s with
        seq :=
          if deadlinePassed s.ports.tick s.seq.nextTick then
            { s.seq with
              mode := modeAfterStep s.seq.mode (nextStep s.seq.step P)
              step := nextStep s.seq.step P
              nextTick := s.seq.nextTick + s.seq.ticksPerStep }
          else s.seq
        clk :=
          if deadlinePassed s.ports.tick s.seq.nextTick then
            ⟨{ s.clk.u0 with state := (signals P (nextStep s.seq.step P)).1 },
             { s.clk.u1 with state := (signals P (nextStep s.seq.step P)).2 }⟩
          else s.clk } := by
  by_cases h : s.seq.nextTick < s.ports.tick
  · rw [State.seqTimed_steps h]; simp [deadlinePassed, h]
  · rw [State.seqTimed_waits h]; simp [deadlinePassed, h]

/-- What the Clock or sequencer part of a pass writes depends on the parameters, the Buttons, the Clocks, the
sequencer and the tick, and on nothing else of the state (R107, R22). -/
theorem State.updateLines_congr {s u : State} (hc : u.cfg = s.cfg) (hb : u.btn = s.btn) (hk : u.clk = s.clk)
    (hq : u.seq = s.seq) (ht : u.ports.tick = s.ports.tick) :
    u.updateLines.clk = s.updateLines.clk ∧ u.updateLines.seq = s.updateLines.seq := by
  unfold State.updateLines State.activeProgram
  rw [hq, hc]
  split
  · simp only [State.updateClock, State.setClk, State.now, hb, hk, hq, ht, and_self]
  · split
    · unfold State.seqUpdate
      rw [hq]
      split <;>
        simp only [State.seqManual_eq, State.seqTimed_eq, hb, hk, hq, ht, and_self]
    · exact ⟨hk, hq⟩

/-- The Clock or sequencer part of a pass writes only `clk` and `seq` (R107, R22). -/
theorem State.updateLines_frame (s : State) :
    ∃ c q, s.updateLines = { s with clk := c, seq := q } := by
  unfold State.updateLines
  split
  · exact ⟨_, _, rfl⟩
  · split
    · rename_i P _
      unfold State.seqUpdate
      have timed : ∃ c q, s.seqTimed P = { s with clk := c, seq := q } := by
        by_cases h : s.seq.nextTick < s.ports.tick
        · exact ⟨_, _, State.seqTimed_steps h⟩
        · exact ⟨_, _, State.seqTimed_waits h⟩
      split
      · exact ⟨_, _, State.seqManual_eq s P⟩
      · exact timed
      · exact timed
    · exact ⟨_, _, rfl⟩

@[simp] theorem State.updateLines_cfg (s : State) : s.updateLines.cfg = s.cfg := by
  obtain ⟨c, q, h⟩ := s.updateLines_frame; rw [h]

@[simp] theorem State.updateLines_btn (s : State) : s.updateLines.btn = s.btn := by
  obtain ⟨c, q, h⟩ := s.updateLines_frame; rw [h]

@[simp] theorem State.updateLines_out (s : State) : s.updateLines.out = s.out := by
  obtain ⟨c, q, h⟩ := s.updateLines_frame; rw [h]

@[simp] theorem State.updateLines_inp (s : State) : s.updateLines.inp = s.inp := by
  obtain ⟨c, q, h⟩ := s.updateLines_frame; rw [h]

@[simp] theorem State.updateLines_cmdOk (s : State) : s.updateLines.cmdOk = s.cmdOk := by
  obtain ⟨c, q, h⟩ := s.updateLines_frame; rw [h]

@[simp] theorem State.updateLines_ports (s : State) : s.updateLines.ports = s.ports := by
  obtain ⟨c, q, h⟩ := s.updateLines_frame; rw [h]

@[simp] theorem State.updateLines_upcoming (s : State) : s.updateLines.upcoming = s.upcoming := by
  obtain ⟨c, q, h⟩ := s.updateLines_frame; rw [h]

@[simp] theorem State.updateLines_envIndex (s : State) : s.updateLines.envIndex = s.envIndex := by
  obtain ⟨c, q, h⟩ := s.updateLines_frame; rw [h]

end Sys2Proof.Machine
end

