-- ==== Sys2Proof/Laws/Pass.lean ====
section
/-! SUPPORT. The updates of a pass, machine by machine: each machine's registers after the updates are its own
update of its own registers (R22, R88, R97). -/

namespace Sys2Proof.Machine

/-- The state after the two Button updates, from which the Clocks and the sequencer are updated (R60). -/
def State.afterButtons (s : State) : State := (s.updateButton 0).updateButton 1

/-- The two Button updates write only `btn`, each Button from its own pin and registers (R70). -/
theorem State.afterButtons_eq (s : State) :
    s.afterButtons =
      { s with
        btn := ⟨buttonUpdate s.cfg.buttonUpdateInterval s.ports.tick s.ports.btnIn.u0 s.btn.u0,
                buttonUpdate s.cfg.buttonUpdateInterval s.ports.tick s.ports.btnIn.u1 s.btn.u1⟩ } :=
  rfl

/-- The updates of a pass, written out: Buttons, lines, channels, receiver (R60). -/
theorem State.updates_eq (s : State) :
    s.updates =
      { s.afterButtons.updateLines with
        out := ⟨outputUpdate s.cfg.outputTickInterval s.ports.tick s.out.u0,
                outputUpdate s.cfg.outputTickInterval s.ports.tick s.out.u1,
                outputUpdate s.cfg.outputTickInterval s.ports.tick s.out.u2,
                outputUpdate s.cfg.outputTickInterval s.ports.tick s.out.u3⟩
        inp := inputUpdate s.cfg.inputTickInterval s.ports.tick s.ports.inData s.inp } := by
  obtain ⟨c, q, h⟩ := s.afterButtons.updateLines_frame
  have h' : ((s.updateButton 0).updateButton 1).updateLines = { s.afterButtons with clk := c, seq := q } := h
  unfold State.updates
  rw [h', h]
  rfl

/-- Each Button's registers after the updates (R70). -/
theorem State.updates_btn (s : State) (i : Fin 2) :
    Two.get s.updates.btn i =
      buttonUpdate s.cfg.buttonUpdateInterval s.ports.tick (Two.get s.ports.btnIn i) (Two.get s.btn i) := by
  rw [State.updates_eq]
  simp only [State.updateLines_btn, State.afterButtons_eq]
  fin_cases i <;> rfl

/-- Each OutputChannel's registers after the updates (R85, R88). -/
theorem State.updates_out (s : State) (ch : Fin 4) :
    Four.get s.updates.out ch = outputUpdate s.cfg.outputTickInterval s.ports.tick (Four.get s.out ch) := by
  rw [State.updates_eq]
  fin_cases ch <;> rfl

/-- The InputChannel's registers after the updates (R95, R97). -/
theorem State.updates_inp (s : State) :
    s.updates.inp = inputUpdate s.cfg.inputTickInterval s.ports.tick s.ports.inData s.inp := by
  rw [State.updates_eq]

/-- The Clocks after the updates (R107). -/
theorem State.updates_clk (s : State) : s.updates.clk = s.afterButtons.updateLines.clk := by
  rw [State.updates_eq]

/-- The sequencer after the updates (R107). -/
theorem State.updates_seq (s : State) : s.updates.seq = s.afterButtons.updateLines.seq := by
  rw [State.updates_eq]

/-- Under the sentinel each Clock is updated from its own Button of this pass, and the sequencer stays
(R75, R107). -/
theorem State.updates_of_sentinel {s : State} (h : s.seq.curProg = 0) :
    s.updates.clk =
        ⟨clockUpdate s.ports.tick s.updates.btn.u0 s.clk.u0, clockUpdate s.ports.tick s.updates.btn.u1 s.clk.u1⟩ ∧
      s.updates.seq = s.seq := by
  have hb0 := s.updates_btn 0
  have hb1 := s.updates_btn 1
  simp only [Two.get_zero, Two.get_one] at hb0 hb1
  have hs : s.afterButtons.seq.curProg = 0 := h
  rw [State.updates_clk, State.updates_seq, hb0, hb1]
  unfold State.updateLines
  rw [if_pos hs]
  exact ⟨rfl, rfl⟩

@[simp] theorem State.updates_cfg (s : State) : s.updates.cfg = s.cfg := by
  rw [State.updates_eq]; simp [State.afterButtons_eq]

@[simp] theorem State.updates_cmdOk (s : State) : s.updates.cmdOk = s.cmdOk := by
  rw [State.updates_eq]; simp [State.afterButtons_eq]

@[simp] theorem State.updates_ports (s : State) : s.updates.ports = s.ports := by
  rw [State.updates_eq]; simp [State.afterButtons_eq]

@[simp] theorem State.updates_upcoming (s : State) : s.updates.upcoming = s.upcoming := by
  rw [State.updates_eq]; simp [State.afterButtons_eq]

@[simp] theorem State.updates_envIndex (s : State) : s.updates.envIndex = s.envIndex := by
  rw [State.updates_eq]; simp [State.afterButtons_eq]

/-- The environment's next inputs do not depend on the levels of this pass. -/
theorem State.nextEdge_congr_ports (s : State) (p : InPorts) :
    ({ s with ports := p } : State).nextEdge = s.nextEdge := by
  unfold State.nextEdge
  cases s.upcoming <;> rfl

/-- A pass without reset, from a legal state, is the command and then the updates (R60). -/
theorem step_of_legal {s : State} (hr : s.ports.rst = false) (hl : s.legal = true) : step s = s.runPass := by
  simp [step, State.pass, hr, hl]

/-- A pass with reset (R126). -/
theorem step_of_rst {s : State} (hr : s.ports.rst = true) : step s = .next s.resetPass.nextEdge := by
  simp [step, State.pass, hr]

/-- If the command gives a next state, so does the pass (R60). -/
theorem runPass_of_next {s t : State} (h : s.takeCommand = .next t) : s.runPass = .next t.updates.nextEdge := by
  simp [State.runPass, h]

/-- Everything a step can do: a reset pass; a pass of a legal state; or the refusal of a state that no rule
gives behaviour to. -/
theorem step_cases {s t : State} (h : step s = .next t) :
    (s.ports.rst = true ∧ t = s.resetPass.nextEdge) ∨
      (s.ports.rst = false ∧ s.legal = true ∧ ∃ u, s.takeCommand = .next u ∧ t = u.updates.nextEdge) := by
  unfold step State.pass at h
  split at h
  · exact .inl ⟨‹_›, by cases h; rfl⟩
  · split at h
    · refine .inr ⟨by simpa using ‹¬ s.ports.rst = true›, ‹_›, ?_⟩
      unfold State.runPass at h
      split at h
      · rename_i u hu; exact ⟨u, hu, by cases h; rfl⟩
      · cases h
      · cases h
    · cases h

end Sys2Proof.Machine
end

