-- ==== Sys2Proof/Laws/PerInstr.lean ====
section
/-! SUPPORT. Facts about every command as syntax, one lemma per constructor. -/

namespace Sys2Proof.Laws.EncodedFields

/-- The three fields of an encoded command are its operation code, its unit number and its operand (R45,
R46). -/
def Statement (i : Instr) : Prop :=
  opField (encode i) = i.op ∧ idxField (encode i) = i.idx ∧ immField (encode i) = i.imm

/-- Bit `k` of three parts put together (R45). -/
theorem bit_append (a b : BitVec 8) (c : BitVec 16) (k : Nat) :
    (a ++ b ++ c : CmdWord).getLsbD k =
      if k < 16 then c.getLsbD k else if k - 16 < 8 then b.getLsbD (k - 16) else a.getLsbD (k - 16 - 8) := by
  refine (BitVec.getLsbD_append (x := a ++ b) (y := c) (i := k)).trans ?_
  split
  · rfl
  · exact BitVec.getLsbD_append

/-- The fields of three parts put together are the parts (R46). -/
theorem fields_append (a b : BitVec 8) (c : BitVec 16) :
    opField (a ++ b ++ c) = a ∧ idxField (a ++ b ++ c) = b ∧ immField (a ++ b ++ c) = c := by
  refine ⟨?_, ?_, ?_⟩ <;> apply BitVec.eq_of_getLsbD_eq <;> intro k hk
  · rw [opField, BitVec.getLsbD_extractLsb', bit_append, if_neg (by omega), if_neg (by omega),
      show 24 + k - 16 - 8 = k by omega]
    simp [hk]
  · rw [idxField, BitVec.getLsbD_extractLsb', bit_append, if_neg (by omega), if_pos (by omega),
      show 16 + k - 16 = k by omega]
    simp [hk]
  · rw [immField, BitVec.getLsbD_extractLsb', bit_append, if_pos (by omega), show 0 + k = k by omega]
    simp [hk]

theorem nop : Statement .nop := fields_append _ _ _
theorem oset (ch : BitVec 8) (v : BitVec 16) : Statement (.oset ch v) := fields_append _ _ _
theorem orev (ch : BitVec 8) : Statement (.orev ch) := fields_append _ _ _
theorem psel (n : BitVec 16) : Statement (.psel n) := fields_append _ _ _
theorem cfreq (c : BitVec 8) (f : BitVec 16) : Statement (.cfreq c f) := fields_append _ _ _
theorem pfreq (f : BitVec 16) : Statement (.pfreq f) := fields_append _ _ _
theorem cauto (c : BitVec 8) : Statement (.cauto c) := fields_append _ _ _
theorem csync : Statement .csync := fields_append _ _ _
theorem csynco : Statement .csynco := fields_append _ _ _
theorem pauto : Statement .pauto := fields_append _ _ _
theorem iack : Statement .iack := fields_append _ _ _

end Sys2Proof.Laws.EncodedFields
end

