-- ==== Sys2Proof/Tests/Slice0.lean ====
section
/-! SUPPORT. Tests of the model and witnesses for the statements. Expected values come from
spec/95_test_vectors.md (its vectors are named in the comments) or are written out from the encoding table. -/

namespace Sys2Proof.Tests

open Sys2Proof Sys2Proof.Machine

/-! ### Helpers: the test configuration TC1 and passes on it -/

/-- The table of TC1. -/
def tc1 : Config :=
  { tickFreq := 1000, buttonUpdateInterval := 2, outputTickInterval := 1, inputTickInterval := 1
    maxPrograms := 4, sentinel := {}
    programs := [{ len := 4, seq0 := 0b0110, seq1 := 0b0011 }, { len := 8, seq0 := 0xAA, seq1 := 0x0F },
      { len := 16, seq0 := 0x8001, seq1 := 0xFFFF }]
    clkFreqReset := ⟨10, 10⟩, progFreqReset := 10 }

/-- Inputs at a tick: pins low, no command. -/
def at' (t : Nat) : InPorts :=
  { rst := false, tick := BitVec.ofNat 64 t, btnIn := ⟨false, false⟩, inData := false, cmdValid := false,
    cmd := 0 }

/-- Inputs at a tick with a command word. -/
def cmdAt (t : Nat) (w : CmdWord) : InPorts := { at' t with cmdValid := true, cmd := w }

/-- The reset state under TC1 with `T0 = 0`, about to see the inputs `p`. -/
def before (p : InPorts) : State := State.afterReset tc1 0 p [] 0

/-- The reset state under TC1. -/
def s0 : State := before (at' 0)

/-- There is a next state. -/
def isNext (o : Host.Outcome State Fault Refusal) : Bool :=
  match o with
  | .next _ => true
  | .fault _ => false
  | .refused _ => false

/-- The state after a step that gives one. -/
def next (o : Host.Outcome State Fault Refusal) : State :=
  match o with
  | .next t => t
  | .fault _ => s0
  | .refused _ => s0

/-- The state after one pass on the inputs `p`. -/
def after (p : InPorts) (s : State) : State := next (passOn p s)

/-- The state after the passes on the inputs `ps`. -/
def afterAll (ps : List InPorts) (s : State) : State := next (runOn ps s)

theorem eq_next {o : Host.Outcome State Fault Refusal} (h : isNext o = true) : o = .next (next o) := by
  cases o with
  | next t => rfl
  | fault r => cases h
  | refused r => cases h

/-- `s` under Program `n`, at step `k`. -/
def underProgram (n k : BitVec 8) (s : State) : State :=
  s.setSeq { s.seq with curProg := n, step := k, ticksPerStep := 2, nextTick := 3 }

/-- Passes at the ticks `t, t + d, ...`, `n` of them. -/
def ticks (t d n : Nat) : List InPorts := (List.range n).map fun k => at' (t + d * k)

/-! ### Well-formedness: an ill-formed term for each check, and the boundary -/

theorem test_wf_oset : Instr.wf (.oset 4 0) = false ∧ Instr.wf (.oset 3 0xFFFF) = true := by decide

theorem test_wf_orev : Instr.wf (.orev 4) = false ∧ Instr.wf (.orev 3) = true := by decide

theorem test_wf_cfreq : Instr.wf (.cfreq 2 10) = false ∧ Instr.wf (.cfreq 1 10) = true := by decide

theorem test_wf_cauto : Instr.wf (.cauto 2) = false ∧ Instr.wf (.cauto 1) = true := by decide

/-! ### Decoding: one word per command, written out as `op`, `idx`, `imm` from R48's table (E1, P1 to P5) -/

theorem test_decode_nop : decode 0b00000000_00000000_0000000000000000#32 = .ok .nop := by decide

theorem test_decode_oset : decode 0b00000001_00000010_1111111111111111#32 = .ok (.oset 2 0xFFFF) := by decide

theorem test_decode_orev : decode 0b00000010_00000001_0000000000000000#32 = .ok (.orev 1) := by decide

theorem test_decode_psel : decode 0b00000011_00000000_0000000000000001#32 = .ok (.psel 1) := by decide

theorem test_decode_cfreq : decode 0b00000100_00000001_0000001111101000#32 = .ok (.cfreq 1 1000) := by decide

theorem test_decode_pfreq : decode 0b00000101_00000000_0000000011111010#32 = .ok (.pfreq 250) := by decide

theorem test_decode_cauto : decode 0b00000110_00000001_0000000000000000#32 = .ok (.cauto 1) := by decide

theorem test_decode_csync : decode 0b00000111_00000000_0000000000000000#32 = .ok .csync := by decide

theorem test_decode_csynco : decode 0b00001000_00000000_0000000000000000#32 = .ok .csynco := by decide

theorem test_decode_pauto : decode 0b00001001_00000000_0000000000000000#32 = .ok .pauto := by decide

theorem test_decode_iack : decode 0b00001010_00000000_0000000000000000#32 = .ok .iack := by decide

/-- Lines of programs P1 and P3, E1's signed payload, and R54 (a)'s example. -/
theorem test_assemble :
    assembleLine "@10:  OSET 0, 0xA5C3   ; 0x0100A5C3".toList = some (.command (some 10) (.oset 0 0xA5C3)) ∧
      assembleLine "@12                 ; run to now = 12".toList = some (.noCommand 12) ∧
      assembleLine "OSET 0, -2".toList = some (.command none (.oset 0 0xFFFE)) ∧
      assembleLine "CFREQHZ 0, 1.5".toList = some (.command none (.cfreq 0 15)) := by
  decide

/-- R54 (a): `Y` is one decimal digit. R53, R54 (b): `PROG` is no command, so it takes no prefix. -/
theorem test_assemble_refuses :
    assembleLine "CFREQHZ 0, 1.05".toList = none ∧ assembleLine "PFREQHZ 15".toList = none ∧
      assembleLine "PFREQHZ 1.".toList = none ∧ assembleLine "@5: PROG 4, 6, 3".toList = none ∧
      assembleLine "PROG 0, 6, 3".toList = none := by
  decide

/-- The table of TC1 as section 0 of the test vectors declares it, with a comment and a blank line. -/
theorem test_assemble_table :
    (assembleText ("PROG 1, 0, 0 ; sentinel\n\nPROG 4, 0b0110, 0b0011\nPROG 8, 0xAA, 0x0F\n; last\n" ++
        "PROG 16, 0x8001, 0xFFFF").toList).map (fun ls => (assembledTable ls).map packEntry) =
      some [0x0100000000, 0x0400060003, 0x0800AA000F, 0x108001FFFF] := by
  decide

/-! ### Presenting a command as the first one after reset -/

/-- The table word of every row decodes to a command of that row. -/
theorem test_table_words_decode :
    opcodeMap.all (fun r =>
      match decodeTableWord 32 r.bits.toNat with
      | some i => i.row.mnemonic == r.mnemonic
      | none => false) = true := by
  decide

/-- A pass from `State.reset` that presents the table word of any row gives a next state. -/
theorem test_first_command_runs :
    opcodeMap.all (fun r => isNext (step (State.reset.withFetchWord 32 r.bits.toNat))) = true := by
  decide

/-- The presented word is the one the next pass takes. -/
theorem test_withFetchWord (s : State) :
    (s.withFetchWord 32 0x0100A5C3).ports.cmd = 0x0100A5C3 ∧ (s.withFetchWord 32 0x0100A5C3).ports.rst = false ∧
      (s.withFetchWord 32 0x0100A5C3).ports.cmdValid = true :=
  ⟨rfl, rfl, rfl⟩

/-! ### One-step tests -/

/-- P5 at `now = 10` and `now = 11`: NOP with `imm != 0` is refused, NOP is not. -/
theorem test_nop :
    (after (cmdAt 10 0x00000001) s0).cmdOk = false ∧
      (after (cmdAt 11 0x00000000) (after (cmdAt 10 0x00000001) s0)).cmdOk = true := by
  decide

/-- O1: OSET at `now = 10`; the Pause action at 11 puts bit 0 of `0xA5C3` on the pin. -/
theorem test_oset :
    (let o := (after (cmdAt 10 0x0100A5C3) s0).out.u0;
      (o.st, o.data, o.bit, o.nextTick, o.dataPin) = (.pause, 0xA5C3, 0, 10, false)) ∧
      (let o := (after (at' 11) (after (cmdAt 10 0x0100A5C3) s0)).out.u0;
        (o.st, o.bit, o.nextTick, o.dataPin, o.enablePin) = (.dataSet, 1, 12, true, false)) := by
  decide

/-- O6: OREV 1 at `now = 5`, from reset; the other channels stay. -/
theorem test_orev :
    (after (cmdAt 5 0x02010000) s0).out =
      { s0.out with u1 := { s0.out.u1 with reverse := true, st := .pause, nextTick := 5 } } := by
  decide

/-- Q3: PSEL 3. -/
theorem test_psel :
    (after (cmdAt 1 0x03000003) s0).seq =
      { curProg := 3, mode := .manual, step := 0, nextTick := 0, ticksPerStep := 62, freq := 10 } := by
  decide

/-- Q3: PSEL 4 and PSEL 7 are refused and change nothing in the sequencer. -/
theorem test_psel_refused :
    (after (cmdAt 1 0x03000004) s0).cmdOk = false ∧ (after (cmdAt 1 0x03000007) s0).cmdOk = false ∧
      (after (cmdAt 1 0x03000004) s0).seq = s0.seq := by
  decide

/-- C1: 3.3 Hz on clock 1. -/
theorem test_cfreq :
    (after (cmdAt 1 0x04010021) s0).clk =
      { s0.clk with u1 := { s0.clk.u1 with freq := 33, ticksPerStep := 151 } } := by
  decide

/-- C1: a frequency of 0. -/
theorem test_cfreq_zero :
    (after (cmdAt 1 0x04000000) s0).cmdOk = false ∧ (after (cmdAt 1 0x04000000) s0).clk = s0.clk := by
  decide

/-- Q2: `f = 1000` with `len = 16` gives 0, with the sentinel 10 (P1). -/
theorem test_pfreq :
    (after (cmdAt 3 0x050003E8) (underProgram 3 0 s0)).seq.ticksPerStep = 0 ∧
      (after (cmdAt 1 0x050003E8) s0).seq = { s0.seq with freq := 1000, ticksPerStep := 10 } := by
  decide

/-- C3: CAUTO 0 at `now = 100`; no toggle in that pass, a toggle at 101 to the deadline 105. -/
theorem test_cauto :
    (let c := (afterAll [cmdAt 99 0x040003E8, cmdAt 100 0x06000000] s0).clk.u0;
      (c.mode, c.state, c.nextTick) = (.auto, false, 100)) ∧
      (let c := (afterAll [cmdAt 99 0x040003E8, cmdAt 100 0x06000000, at' 101] s0).clk.u0;
        (c.mode, c.state, c.nextTick) = (.auto, true, 105)) := by
  decide

/-- Two Auto Clocks as program P4 leaves them at `now = 119`. -/
def p4Clocks : Two Clock :=
  ⟨{ mode := .auto, state := false, nextTick := 120, ticksPerStep := 5, freq := 1000 },
   { mode := .auto, state := false, nextTick := 119, ticksPerStep := 5, freq := 1000 }⟩

/-- C3: CSYNC at `now = 120`; without it clock 1 would have toggled. -/
theorem test_csync :
    (after (cmdAt 120 0x07000000) { s0 with clk := p4Clocks }).clk =
      ⟨p4Clocks.u0, { p4Clocks.u1 with nextTick := 120 }⟩ := by
  decide

/-- C5: CSYNC under Program 1 sets `cmd_ok` and moves no Clock. -/
theorem test_csync_under_program :
    (after (cmdAt 3 0x07000000) (underProgram 1 0 { s0 with clk := p4Clocks, cmdOk := false })).clk = p4Clocks ∧
      (after (cmdAt 3 0x07000000) (underProgram 1 0 { s0 with clk := p4Clocks, cmdOk := false })).cmdOk = true := by
  decide

/-- C4: CSYNCO at `now = 128`, with clock 0 at the deadline 130. -/
theorem test_csynco :
    (after (cmdAt 128 0x08000000)
        { s0 with clk := ⟨{ p4Clocks.u0 with nextTick := 130 }, { p4Clocks.u1 with nextTick := 130 }⟩ }).clk =
      ⟨{ p4Clocks.u0 with nextTick := 130 }, { p4Clocks.u1 with nextTick := 135 }⟩ := by
  decide

/-- P1: PAUTO at `now = 3` under Program 1, and the first step at 4. -/
theorem test_pauto :
    (let q := (afterAll [cmdAt 1 0x050003E8, cmdAt 2 0x03000001, cmdAt 3 0x09000000] s0).seq;
      (q.mode, q.step, q.nextTick, q.ticksPerStep) = (.auto, 0, 3, 2)) ∧
      (let t := afterAll [cmdAt 1 0x050003E8, cmdAt 2 0x03000001, cmdAt 3 0x09000000, at' 4] s0;
        (t.seq.step, t.seq.nextTick, t.clk.u0.state, t.clk.u1.state) = (1, 5, true, false)) := by
  decide

/-- Q6: PAUTO out of OneShot at `now = 30`. -/
theorem test_pauto_oneShot :
    (let q := (after (cmdAt 30 0x09000000)
        (s0.setSeq { s0.seq with curProg := 1, mode := .oneShot, step := 1, nextTick := 267 })).seq;
      (q.mode, q.step, q.nextTick) = (.manual, 1, 30)) := by
  decide

/-- The receiver of I1 before its sixteenth sample. -/
def lastSample : InputChannel :=
  { inputReset 0 with
    st := .serialShiftOff, tempData := 0x59C7, tempMirrored := 0xE39A, bitCount := 15
    nextTick := 64, shiftPin := true, clockPin := true }

/-- I5: IACK in the pass of the publication loses nothing; the words are I1's. -/
theorem test_iack :
    (let i := (after { cmdAt 65 0x0A000000 with inData := true } { s0 with inp := lastSample }).inp;
      (i.data, i.dataMirrored, i.dataChanged, i.bitCount, i.st) = (0xB38F, 0xF1CD, true, 0, .idle)) := by
  decide

/-- I5: IACK at `now = 70` clears the flag and keeps the word. -/
theorem test_iack_clears :
    (let i := (after (cmdAt 70 0x0A000000)
        { s0 with inp := { inputReset 70 with data := 0xB38F, dataChanged := true } }).inp;
      (i.data, i.dataChanged) = (0xB38F, false)) := by
  decide

/-- B1 at `now = 15`: the eighth high sample flips the Button, and the Manual clock 0 follows. -/
theorem test_button_flip :
    (let t := after { at' 15 with btnIn := ⟨true, false⟩ }
        { s0 with btn := { s0.btn with u0 := { reg := 0x7F, state := false, stateChanged := false, nextTick := 14 } } };
      (t.btn.u0, t.clk.u0.state) =
        ({ reg := 0xFF, state := true, stateChanged := true, nextTick := 16 }, true)) := by
  decide

/-- Q5's registers before `now = 235`: both buttons about to flip. -/
def bothButtons : State :=
  { s0 with
    btn := ⟨{ reg := 0x7F, state := false, stateChanged := false, nextTick := 234 },
            { reg := 0x7F, state := false, stateChanged := false, nextTick := 234 }⟩
    seq := { curProg := 1, mode := .manual, step := 2, nextTick := 0, ticksPerStep := 10, freq := 250 } }

/-- Q5 at `now = 235`: OneShot and a step in one pass. -/
theorem test_both_buttons :
    (let t := after { at' 235 with btnIn := ⟨true, true⟩ } bothButtons;
      (t.seq.mode, t.seq.step, t.seq.nextTick, t.clk.u0.state, t.clk.u1.state) =
        (.oneShot, 3, 235, false, true)) := by
  decide

/-- Z1: after reset at `tick = 1000` nothing happens at 1000; at 1001 the Buttons sample and the receiver
acts. -/
theorem test_reset :
    (let t := after { cmdAt 1000 0x0100FFFF with rst := true } bothButtons;
      (t.btn.u0.nextTick, t.seq.curProg, t.cmdOk, t.out.u0.st) = (1000, 0, true, .idle)) ∧
      (let t := afterAll [{ at' 1000 with rst := true }, at' 1000, at' 1001] bothButtons;
        (t.btn.u0.nextTick, t.inp.loadPin, t.inp.nextTick) = (1002, true, 1002)) := by
  decide

/-! ### Witnesses: for each statement with hypotheses, inputs that meet them -/

theorem witness_DecodeInvertsEncode :
    Instr.wf (.oset 3 0xFFFF) = true ∧ Instr.wf (.orev 3) = true ∧ Instr.wf (.cfreq 1 0xFFFF) = true ∧
      Instr.wf (.cauto 1) = true ∧ Instr.wf (.psel 0xFFFF) = true ∧ Instr.wf (.pfreq 0xFFFF) = true ∧
      Instr.wf .nop = true ∧ Instr.wf .csync = true ∧ Instr.wf .csynco = true ∧ Instr.wf .pauto = true ∧
      Instr.wf .iack = true := by
  decide

theorem witness_EncodeInvertsDecode : decode 0x0103FFFF = .ok (.oset 3 0xFFFF) := by decide

theorem witness_WordBelongsToItsRow :
    Instr.row (.oset 0 0) ∈ opcodeMap ∧ (Instr.row (.oset 0 0)).matches 0x0103FFFF = true := by
  decide

/-- Reserved words at the boundaries of R49's list. -/
theorem witness_ReservedWordsAreRefused :
    (before (cmdAt 1 0x01040000)).ports.cmdValid = true ∧
      ∀ w ∈ [0x0B000000, 0x01040000, 0x02040000, 0x04020001, 0x06020000, 0x03010000, 0x0A010000, 0x02000001,
        0x0A000001], ∃ e, decode w = .error e := by
  refine ⟨rfl, ?_⟩
  simp only [List.forall_mem_cons]
  exact ⟨⟨.unknownOp, by decide⟩, ⟨.unitOutOfRange, by decide⟩, ⟨.unitOutOfRange, by decide⟩,
    ⟨.unitOutOfRange, by decide⟩, ⟨.unitOutOfRange, by decide⟩, ⟨.idxNotZero, by decide⟩,
    ⟨.idxNotZero, by decide⟩, ⟨.immNotZero, by decide⟩, ⟨.immNotZero, by decide⟩, by simp⟩

theorem witness_EntryPackingRoundTrips :
    unpackEntry 0x0400060003 = some { len := 4, seq0 := 0b0110, seq1 := 0b0011 } ∧
      unpackEntry 0x0000060003 = none ∧ unpackEntry 0x1100060003 = none ∧
      unpackEntry 0x1080010000 = some { len := 16, seq0 := 0x8001, seq1 := 0 } := by
  decide

theorem witness_StepRunsTheDecodedCommand :
    (before (cmdAt 10 0x0100A5C3)).ports.rst = false ∧ (before (cmdAt 10 0x0100A5C3)).ports.cmdValid = true ∧
      (before (cmdAt 10 0x0100A5C3)).legal = true ∧
      decode (before (cmdAt 10 0x0100A5C3)).ports.cmd = .ok (.oset 0 0xA5C3) := by
  decide

theorem witness_PassWithoutCommandRunsUpdatesOnly :
    (before (at' 1)).ports.rst = false ∧ (before (at' 1)).ports.cmdValid = false ∧
      (before (at' 1)).legal = true := by
  decide

/-- One refused word of each kind: reserved, PSEL at `prog_count`, CFREQ 0, PFREQ 0. -/
theorem witness_RefusedCommandActsAsNoCommand :
    ∀ w ∈ [(0x0B000000 : Nat), 0x03000004, 0x04010000, 0x05000000],
      let s := before (cmdAt 1 (BitVec.ofNat 32 w));
      s.ports.rst = false ∧ s.ports.cmdValid = true ∧ s.legal = true ∧ refusedCommand s = true := by
  decide

theorem witness_CmdOkTellsRefusal :
    (before (cmdAt 1 0x03000004)).ports.rst = false ∧ (before (cmdAt 1 0x03000004)).ports.cmdValid = true ∧
      step (before (cmdAt 1 0x03000004)) = .next (next (step (before (cmdAt 1 0x03000004)))) :=
  ⟨rfl, rfl, eq_next (by decide)⟩

theorem witness_ResetPassLeavesResetValues : (before { at' 1000 with rst := true }).ports.rst = true := rfl

theorem witness_ResetStateIsAResetPass :
    (State.afterReset Config.platform 0 { at' 0 with rst := true, tick := Config.initialTick } [] 0).ports.rst = true ∧
      (State.afterReset Config.platform 0 { at' 0 with rst := true, tick := Config.initialTick } [] 0).ports.tick =
        Config.initialTick ∧
      (State.afterReset Config.platform 0 { at' 0 with rst := true, tick := Config.initialTick } [] 0).cfg =
        Config.platform :=
  ⟨rfl, rfl, rfl⟩

theorem witness_NopSetsCmdOkOnly :
    (before (cmdAt 1 0x00000000)).ports.rst = false ∧ (before (cmdAt 1 0x00000000)).ports.cmdValid = true ∧
      (before (cmdAt 1 0x00000000)).legal = true ∧ (before (cmdAt 1 0x00000000)).ports.cmd = 0x00000000 := by
  decide

/-- OSET and OREV: the last channel that exists and the first that does not. -/
theorem witness_OsetRestartsTheChannel :
    BitVec.ofNat 8 (3 : Fin 4).val = 3#8 ∧ 3 < (4#8).toNat := by decide

theorem witness_OrevTogglesAndRestarts :
    BitVec.ofNat 8 (3 : Fin 4).val = 3#8 ∧ 3 < (4#8).toNat := by decide

/-- PSEL: the last index and the first beyond the table. -/
theorem witness_PselSelectsOrRefuses :
    (3#16).toNat < progCount s0.cfg ∧ progCount s0.cfg ≤ (4#16).toNat := by decide

/-- CFREQ: the last Clock, the smallest frequency, and the first Clock that does not exist. -/
theorem witness_CfreqSetsTheDivider :
    BitVec.ofNat 8 (1 : Fin 2).val = 1#8 ∧ (1#16) ≠ 0 ∧ 1 < (2#8).toNat := by decide

theorem witness_PfreqSetsTheStepDivider :
    (1#16) ≠ 0 ∧ progRead s0.cfg s0.seq.curProg.toNat = some {} ∧
      (progRead s0.cfg (underProgram 3 0 s0).seq.curProg.toNat).isSome = true := by
  decide

theorem witness_CautoTogglesTheClockMode :
    BitVec.ofNat 8 (1 : Fin 2).val = 1#8 ∧ 1 < (2#8).toNat := by decide

theorem witness_CsyncCopiesThePhase : s0.seq.curProg = 0 ∧ (underProgram 1 0 s0).seq.curProg ≠ 0 := by decide

theorem witness_CsyncoOffsetsThePhase : s0.seq.curProg = 0 ∧ (underProgram 1 0 s0).seq.curProg ≠ 0 := by decide

theorem witness_IackClearsTheFlag :
    (before (cmdAt 65 0x0A000000)).ports.rst = false ∧ (before (cmdAt 65 0x0A000000)).ports.cmdValid = true ∧
      (before (cmdAt 65 0x0A000000)).legal = true ∧ (before (cmdAt 65 0x0A000000)).ports.cmd = 0x0A000000 := by
  decide

theorem witness_CommandsWriteNoPinAndNoTable : exec .iack s0 = .next (next (exec .iack s0)) := rfl

/-- Each of the four clauses, at the last unit. -/
theorem witness_RearmedMachinesWait :
    (∀ w ∈ [(0x01030001 : Nat), 0x02030000, 0x06010000],
      let s := before (cmdAt 5 (BitVec.ofNat 32 w));
      s.ports.rst = false ∧ s.ports.cmdValid = true ∧ isNext (step s) = true ∧ s.seq.curProg = 0 ∧
        s.clk.u1.mode = .manual) ∧
      decode 0x01030001 = .ok (.oset (BitVec.ofNat 8 (3 : Fin 4).val) 1) ∧
      decode 0x02030000 = .ok (.orev (BitVec.ofNat 8 (3 : Fin 4).val)) ∧
      decode 0x06010000 = .ok (.cauto (BitVec.ofNat 8 (1 : Fin 2).val)) ∧
      (let s := underProgram 1 0 (before (cmdAt 5 0x09000000));
        s.ports.rst = false ∧ s.ports.cmdValid = true ∧ isNext (step s) = true ∧
          decode s.ports.cmd = .ok .pauto ∧ s.seq.curProg ≠ 0 ∧ s.seq.mode = .manual) := by
  decide

/-- A pass at the deadline (no sample) and one past it. -/
theorem witness_ButtonSamplesAndFlips :
    (∀ t ∈ [0, 1], (before (at' t)).ports.rst = false ∧ isNext (step (before (at' t))) = true) ∧
      ¬ (before (at' 0)).btn.u0.nextTick < (before (at' 0)).ports.tick ∧
      (before (at' 1)).btn.u0.nextTick < (before (at' 1)).ports.tick := by
  decide

/-- Eight passes with the pin high, two ticks apart, one of them with a command. -/
def pressed : List InPorts :=
  { cmdAt 1 0x0100FFFF with btnIn := ⟨true, false⟩ } ::
    (ticks 3 2 7).map fun p => { p with btnIn := ⟨true, false⟩ }

theorem witness_SteadyPressFlipsExactlyOnce :
    s0.legal = true ∧ (Two.get s0.btn 0).state = false ∧
      (∀ p ∈ pressed, p.rst = false ∧ Two.get p.btnIn 0 = true) ∧ 8 ≤ samplesTaken 0 pressed s0 := by
  decide

/-- Manual and Auto Clocks, at the deadline and past it. -/
theorem witness_ClocksFollowButtonOrDivider :
    (∀ t ∈ [120, 121],
      let s : State := { before (at' t) with clk := ⟨p4Clocks.u0, s0.clk.u1⟩ };
      s.ports.rst = false ∧ s.ports.cmdValid = false ∧ s.legal = true ∧ s.seq.curProg = 0 ∧
        s.clk.u0.mode = .auto ∧ s.clk.u1.mode = .manual ∧ (s.clk.u0.nextTick < s.ports.tick ↔ t = 121)) := by
  decide

theorem witness_ClocksAreBypassedUnderAProgram :
    (underProgram 1 0 s0).seq.curProg ≠ 0 ∧ (∀ p ∈ ticks 1 1 3, quiet p = true) ∧
      runOn (ticks 1 1 3) (underProgram 1 0 s0) = .next (afterAll (ticks 1 1 3) (underProgram 1 0 s0)) :=
  ⟨by decide, by decide, eq_next (by decide)⟩

theorem witness_SyncedClocksStayInPhase :
    (let s : State := { s0 with clk := p4Clocks };
      s.seq.curProg = 0 ∧ s.clk.u0.mode = .auto ∧ s.clk.u1.mode = .auto ∧
        s.clk.u0.ticksPerStep = s.clk.u1.ticksPerStep ∧ (cmdAt 120 0x07000000).rst = false ∧
        (cmdAt 120 0x07000000).cmdValid = true ∧ (cmdAt 120 0x07000000).cmd = 0x07000000 ∧
        (∀ q ∈ ticks 121 1 7, quiet q = true) ∧ isNext (runOn (cmdAt 120 0x07000000 :: ticks 121 1 7) s) = true) := by
  decide

/-- P4 from `now = 128`: clock 0's deadline is 130, its toggle comes at 131. -/
theorem witness_OppositeClocksStayInAntiPhase :
    (let s : State := { s0 with clk := ⟨{ p4Clocks.u0 with nextTick := 130 }, { p4Clocks.u1 with nextTick := 130 }⟩ };
      s.seq.curProg = 0 ∧ s.clk.u0.mode = .auto ∧ s.clk.u1.mode = .auto ∧
        s.clk.u0.ticksPerStep = s.clk.u1.ticksPerStep ∧ (cmdAt 128 0x08000000).rst = false ∧
        (cmdAt 128 0x08000000).cmdValid = true ∧ (cmdAt 128 0x08000000).cmd = 0x08000000 ∧
        (∀ r ∈ ticks 129 1 2 ++ at' 131 :: ticks 132 1 10, quiet r = true) ∧
        (∀ r ∈ cmdAt 128 0x08000000 :: ticks 129 1 2,
          ¬ s.clk.u0.nextTick < r.tick ∧ ¬ s.clk.u0.nextTick + s.clk.u0.ticksPerStep < r.tick) ∧
        s.clk.u0.nextTick < (at' 131).tick ∧ ¬ s.clk.u0.nextTick + s.clk.u0.ticksPerStep < (at' 131).tick ∧
        isNext (runOn (cmdAt 128 0x08000000 :: ticks 129 1 2) s) = true ∧
        isNext (runOn (cmdAt 128 0x08000000 :: ticks 129 1 2 ++ at' 131 :: ticks 132 1 10) s) = true) := by
  decide

theorem witness_SignalsOfTheWorkedExample :
    (let P : ProgEntry := { len := 4, seq0 := 0b0110, seq1 := 0b0011 };
      P.len = 4 ∧ P.seq0 = 0b0110 ∧ P.seq1 = 0b0011) := by
  decide

/-- Two entries that differ above `len`, at the last step. -/
theorem witness_MaskBitsAboveLengthAreUnused :
    (let P : ProgEntry := { len := 4, seq0 := 0b0110, seq1 := 0b0011 };
      let Q : ProgEntry := { len := 4, seq0 := 0xFFF6, seq1 := 0xFFF3 };
      P.len = Q.len ∧ (3#8).toNat < P.len.toNat ∧
        ∀ k < P.len.toNat, P.seq0.getLsbD k = Q.seq0.getLsbD k ∧ P.seq1.getLsbD k = Q.seq1.getLsbD k) := by
  decide

theorem witness_ManualPathFollowsTheButtons :
    (let s : State := { bothButtons with ports := at' 235 };
      s.ports.rst = false ∧ s.ports.cmdValid = false ∧ s.legal = true ∧ s.seq.curProg ≠ 0 ∧
        progRead s.cfg s.seq.curProg.toNat = some { len := 4, seq0 := 0b0110, seq1 := 0b0011 } ∧
        s.seq.mode = .manual) := by
  decide

/-- A sequencer in a timed mode under Program 1, at its last step. -/
def timed (m : SeqMode) : State :=
  s0.setSeq { curProg := 1, mode := m, step := 3, nextTick := 9, ticksPerStep := 2, freq := 1000 }

theorem witness_TimedPathSteps :
    (∀ t ∈ [9, 10],
      let s : State := { timed .oneShot with ports := at' t };
      s.ports.rst = false ∧ s.ports.cmdValid = false ∧ s.legal = true ∧ s.seq.curProg ≠ 0 ∧
        progRead s.cfg s.seq.curProg.toNat = some { len := 4, seq0 := 0b0110, seq1 := 0b0011 } ∧
        s.seq.mode ≠ .manual ∧ (s.seq.nextTick < s.ports.tick ↔ t = 10)) := by
  decide

/-- A sequencer in a timed mode under Program 1, at step 0. -/
def started (m : SeqMode) : State :=
  s0.setSeq { curProg := 1, mode := m, step := 0, nextTick := 3, ticksPerStep := 2, freq := 1000 }

theorem witness_OneShotEndsAtTheWrap :
    (let s := started .oneShot;
      let P : ProgEntry := { len := 4, seq0 := 0b0110, seq1 := 0b0011 };
      s.legal = true ∧ s.seq.curProg ≠ 0 ∧ progRead s.cfg s.seq.curProg.toNat = some P ∧
        s.seq.mode = .oneShot ∧ (∀ p ∈ ticks 4 2 4, quiet p = true) ∧
        dueEvery (fun u => u.seq.nextTick) (ticks 4 2 4) s = true ∧
        (ticks 4 2 4).length = P.len.toNat - s.seq.step.toNat) := by
  decide

theorem witness_AutoLoopsThroughTheSequence :
    (let s := started .auto;
      s.legal = true ∧ s.seq.curProg ≠ 0 ∧
        progRead s.cfg s.seq.curProg.toNat = some { len := 4, seq0 := 0b0110, seq1 := 0b0011 } ∧
        s.seq.mode = .auto ∧ (∀ p ∈ ticks 4 2 9, quiet p = true) ∧
        dueEvery (fun u => u.seq.nextTick) (ticks 4 2 9) s = true ∧ ticks 4 2 9 ≠ []) := by
  decide

/-- The mode changes by each of the four events. -/
theorem witness_ModeChangesOnlyByItsEvents :
    (∀ s ∈ [({ timed .auto with ports := cmdAt 5 0x03000001 } : State),
        { timed .auto with ports := cmdAt 5 0x09000000 },
        { bothButtons with ports := { at' 235 with btnIn := ⟨true, true⟩ } },
        { timed .oneShot with ports := at' 10 }],
      s.ports.rst = false ∧ isNext (step s) = true ∧ (next (step s)).seq.mode ≠ s.seq.mode) := by
  decide

/-- A channel of each state, at the deadline and past it. -/
theorem witness_TransmitterActsByItsState :
    (∀ t ∈ [10, 11], ∀ st ∈ [OutState.idle, .pause, .dataSet, .enableSet],
      let s : State := (before (at' t)).setOut 3 { outputReset 10 with st := st, bit := 15 };
      s.ports.rst = false ∧ s.ports.cmdValid = false ∧ s.legal = true ∧ (Four.get s.out 3).st = st ∧
        ((Four.get s.out 3).nextTick < s.ports.tick ↔ t = 11)) := by
  decide

/-- Channel 3 after OSET at `now = 10`. -/
def restarted : State :=
  s0.setOut 3 { outputReset 10 with st := .pause, data := 0xA5C3 }

theorem witness_TransmissionSendsEveryBitThenFlushes :
    restarted.legal = true ∧ (Four.get restarted.out 3).st = .pause ∧ (Four.get restarted.out 3).bit = 0 ∧
      (Four.get restarted.out 3).last = false ∧ (∀ p ∈ ticks 11 2 51, quiet p = true) ∧
      dueEvery (fun u => (Four.get u.out 3).nextTick) (ticks 11 2 51) restarted = true ∧
      (ticks 11 2 51).length = 51 := by
  decide

/-- R138: channel 0 in EnableSet with the pin high when OSET comes. -/
theorem witness_PreemptedTransmissionHasNoFirstEdge :
    (let s := s0.setOut 0 { outputReset 14 with st := .enableSet, bit := 1, data := 0xFFFF, enablePin := true };
      let u := after (cmdAt 14 0x01000000) s;
      (Four.get s.out 0).st = .enableSet ∧ (Four.get s.out 0).enablePin = true ∧
        (cmdAt 14 0x01000000).rst = false ∧ (cmdAt 14 0x01000000).cmdValid = true ∧
        decode (cmdAt 14 0x01000000).cmd = .ok (.oset (BitVec.ofNat 8 (0 : Fin 4).val) 0) ∧
        isNext (passOn (cmdAt 14 0x01000000) s) = true ∧ (∀ r ∈ [at' 15, at' 17, at' 19], quiet r = true) ∧
        dueEvery (fun x => (Four.get x.out 0).nextTick) [at' 15, at' 17, at' 19] u = true) := by
  decide

/-- A receiver of each state, at the deadline and past it; before the fifteenth and the sixteenth sample. -/
theorem witness_ReceiverActsByItsState :
    (∀ t ∈ [64, 65], ∀ st ∈ [InState.idle, .loadingData, .serialShiftOff, .shiftClockOn],
      ∀ n ∈ [(14 : BitVec 5), 15],
      let s : State := { before (at' t) with inp := { lastSample with st := st, bitCount := n } };
      s.ports.rst = false ∧ s.ports.cmdValid = false ∧ s.legal = true ∧ s.inp.st = st ∧ s.inp.bitCount = n ∧
        (s.inp.nextTick < s.ports.tick ↔ t = 65)) := by
  decide

theorem witness_ReceiverPublishesTheSampledWord :
    s0.legal = true ∧ s0.inp.st = .idle ∧ s0.inp.bitCount = 0 ∧ (∀ p ∈ ticks 1 2 33, quiet p = true) ∧
      dueEvery (fun u => u.inp.nextTick) (ticks 1 2 33) s0 = true ∧ (ticks 1 2 33).length = 33 := by
  decide

/-- At `T0` itself every deadline has just not passed. -/
theorem witness_NothingDueNothingChanges :
    quiet s0.ports = true ∧ s0.legal = true ∧
      (∀ i, ¬ (Two.get s0.btn i).nextTick < s0.ports.tick ∧ ¬ (Two.get s0.clk i).nextTick < s0.ports.tick) ∧
      (∀ ch, ¬ (Four.get s0.out ch).nextTick < s0.ports.tick) ∧ ¬ s0.inp.nextTick < s0.ports.tick ∧
      ¬ s0.seq.nextTick < s0.ports.tick := by
  decide

/-- Pins that differ in a pass that samples none of them. -/
theorem witness_UnsampledPinsAreIgnored :
    (∀ i, (Two.get s0.btn i).nextTick < s0.ports.tick →
      Two.get (⟨true, true⟩ : Two Bool) i = Two.get s0.ports.btnIn i) ∧
      (s0.inp.st = .serialShiftOff → s0.inp.nextTick < s0.ports.tick → true = s0.ports.inData) := by
  decide

/-- Two states that differ in the sequencer, the Clocks and the other channels. -/
theorem witness_ChannelsAndReceiverAreIndependent :
    (let s := before (at' 11);
      let s' := ((started .auto).setOut 1 { outputReset 10 with st := .pause }).setBtn 1 { buttonReset 5 with reg := 7 };
      let s' : State := { s' with clk := p4Clocks, ports := at' 11 };
      s'.cfg = s.cfg ∧ s'.ports = s.ports ∧ isNext (step s) = true ∧ isNext (step s') = true ∧
        Four.get s'.out 0 = Four.get s.out 0 ∧ s'.inp = s.inp ∧ Two.get s'.btn 0 = Two.get s.btn 0) := by
  decide

theorem witness_ProgramTableNeverChanges :
    runOn (cmdAt 1 0x03000003 :: ticks 2 1 3) s0 = .next (afterAll (cmdAt 1 0x03000003 :: ticks 2 1 3) s0) :=
  eq_next (by decide)

theorem witness_ProgReadAnswersInsideTheTable :
    progRead tc1 3 = some { len := 16, seq0 := 0x8001, seq1 := 0xFFFF } ∧ progRead tc1 4 = none := by
  decide

theorem witness_LegalStatesAlwaysStep :
    s0.legal = true ∧ (before { at' 3 with rst := true }).ports.rst = true := by
  decide

/-- States outside the reachable ranges: a step at `len`, a `cur_prog` at `prog_count`. -/
theorem witness_UnreachableStatesAreRefused :
    (underProgram 1 4 s0).ports.rst = false ∧ (underProgram 1 4 s0).legal = false ∧
      (underProgram 1 3 s0).legal = true ∧ (1#16) ≠ 0 ∧
      progRead (underProgram 4 0 s0).cfg (underProgram 4 0 s0).seq.curProg.toNat = none := by
  decide

/-- Both Auto Clocks at one deadline, at it and past it, in phase and in anti-phase. -/
theorem witness_PhaseRelationIsKept :
    ∀ t ∈ [120, 121], ∀ b ∈ [true, false],
      let s : State :=
        { before (at' t) with clk := ⟨p4Clocks.u0, { p4Clocks.u1 with state := b, nextTick := 120 }⟩ };
      quiet s.ports = true ∧ isNext (step s) = true ∧ s.seq.curProg = 0 ∧ s.clk.u0.mode = .auto ∧
        s.clk.u1.mode = .auto ∧ s.clk.u0.ticksPerStep = s.clk.u1.ticksPerStep ∧
        s.clk.u0.nextTick = s.clk.u1.nextTick ∧ (s.clk.u0.nextTick < s.ports.tick ↔ t = 121) := by
  decide

/-- CSYNCO passes and later passes at the deadlines 120 and 125, and one past each. -/
theorem witness_OffsetClocksActByTheirDeadlines :
    ∀ t ∈ [120, 121, 125, 126], ∀ p ∈ [at' t, cmdAt t 0x08000000],
      let s : State := { before p with clk := ⟨p4Clocks.u0, { p4Clocks.u1 with nextTick := 125 }⟩ };
      s.ports.rst = false ∧ isNext (step s) = true ∧ s.seq.curProg = 0 ∧ s.clk.u0.mode = .auto ∧
        s.clk.u1.mode = .auto ∧ s.clk.u0.ticksPerStep = s.clk.u1.ticksPerStep ∧
        ((s.ports.cmdValid = true ∧ s.ports.cmd = 0x08000000) ∨
          (s.ports.cmdValid = false ∧ s.clk.u1.state = s.clk.u0.state ∧
            s.clk.u1.nextTick = s.clk.u0.nextTick + s.clk.u0.ticksPerStep)) ∧
        (s.clk.u0.nextTick < s.ports.tick ↔ 121 ≤ t) ∧
        (s.clk.u0.nextTick + s.clk.u0.ticksPerStep < s.ports.tick ↔ 126 ≤ t) := by
  decide

/-- A table at the capacity 4, one above it, and none at all. -/
theorem witness_EntryDirectivesFillTheTable :
    (configWithTable tc1 (assembledTable (List.replicate 4 (.entry {})))).isSome = true ∧
      configWithTable tc1 (assembledTable (List.replicate 5 (.entry {}))) = none ∧
      configWithTable tc1 (assembledTable [.blank, .command none .nop, .noCommand 3]) = none := by
  decide

/-- The smallest and the largest frequency, and the first beyond 16 bits. -/
theorem witness_HzOperandsHaveOneDecimalDigit :
    asmHz "0.0".toList = some 0 ∧ asmHz "6553.5".toList = some 65535 ∧ asmHz "6553.6".toList = none := by
  decide

end Sys2Proof.Tests
end

/-! PROOFS. The output ports show the registers (R24, R25, R52, R81). -/

namespace Sys2Proof.Machine

@[simp] theorem Two.get_portOfTwo {α β : Type} (f : α → β) (t : Two α) (i : Fin 2) :
    Two.get (portOfTwo f t) i = f (Two.get t i) := by
  fin_cases i <;> rfl

@[simp] theorem Four.get_portOfFour {α β : Type} (f : α → β) (t : Four α) (ch : Fin 4) :
    Four.get (portOfFour f t) ch = f (Four.get t ch) := by
  fin_cases ch <;> rfl

theorem clockModeTag_eq (m : ClockMode) : clockModeTag m = if m = .manual then 0 else 1 := by
  cases m <;> rfl

theorem seqModeTag_eq (m : SeqMode) :
    seqModeTag m = if m = .manual then 0 else if m = .oneShot then 1 else 2 := by
  cases m <;> rfl

/-- Settles O54, port by port: a bank's port is read unit by unit, and the two mode ports carry tags. -/
theorem outputPortsShowTheRegisters : Obligations.OutputPortsShowTheRegisters := by
  intro s
  refine ⟨fun i => ?twoUnits, fun ch => ?fourUnits, rfl, rfl, rfl, rfl, seqModeTag_eq s.seq.mode⟩
  case twoUnits => simp only [State.outPorts, Two.get_portOfTwo, clockModeTag_eq, and_self]
  case fourUnits => simp only [State.outPorts, Four.get_portOfFour, and_self]

end Sys2Proof.Machine

/-! SUPPORT. Each machine's invariant is kept by its own actions (R11 to R16). -/

namespace Sys2Proof.Machine

/-! ### Buttons -/

theorem buttonReset_inv (t0 : Tick) : ButtonInv (buttonReset t0) where
  ones h := by simp [buttonReset] at h
  zeros _ := rfl
  edge := nofun

theorem debounced_ones {reg : BitVec 8} (old : Bool) (h : reg = 0xFF) : debounced reg old = true :=
  if_pos h

theorem debounced_zeros {reg : BitVec 8} (old : Bool) (h : reg = 0x00) : debounced reg old = false := by
  rw [h]; rfl

theorem debounced_mixed {reg : BitVec 8} (old : Bool) (ones : reg ≠ 0xFF) (zeros : reg ≠ 0x00) :
    debounced reg old = old := by
  rw [debounced, if_neg ones, if_neg zeros]

/-- The debounced value flips only at a register of all ones or all zeros, and then agrees with it (R70 (e)). -/
theorem reg_of_flipped {reg : BitVec 8} {old : Bool} (h : flipped old (debounced reg old) = true) :
    reg = if debounced reg old then 0xFF else 0x00 := by
  by_cases ones : reg = 0xFF
  · rw [debounced_ones old ones, ones]; rfl
  by_cases zeros : reg = 0x00
  · rw [debounced_zeros old zeros, zeros]; rfl
  · simp [debounced_mixed old ones zeros, flipped] at h

/-- BTN.UPDATE establishes the relation between register and debounced value (R70). -/
theorem ButtonInv.update {b : Button} (hb : ButtonInv b) (v : BitVec 32) (now : Tick) (pin : Bool) :
    ButtonInv (buttonUpdate v now pin b) := by
  by_cases due : b.nextTick < now
  · rw [buttonUpdate_samples due]
    exact
      { ones := debounced_ones b.state
        zeros := debounced_zeros b.state
        edge := reg_of_flipped }
  · rw [buttonUpdate_waits due]
    exact { ones := hb.ones, zeros := hb.zeros, edge := nofun }

/-! ### Clocks -/

theorem clockReset_inv (tickFreq : BitVec 48) {f : BitVec 16} (hf : f ≠ 0) (t0 : Tick) :
    ClockInv tickFreq (clockReset tickFreq f t0) := ⟨hf, rfl⟩

theorem clockSetFreq_inv (tickFreq : BitVec 48) {f : BitVec 16} (hf : f ≠ 0) (c : Clock) :
    ClockInv tickFreq (clockSetFreq tickFreq f c) := ⟨hf, rfl⟩

/-- CLK.UPDATE writes the line and the deadline only (R75). -/
theorem ClockInv.update {tickFreq : BitVec 48} {c : Clock} (hc : ClockInv tickFreq c) (now : Tick) (b : Button) :
    ClockInv tickFreq (clockUpdate now b c) where
  freq_ne := by rw [clockUpdate_freq]; exact hc.freq_ne
  ticks := by rw [clockUpdate_ticksPerStep, clockUpdate_freq]; exact hc.ticks

/-! ### OutputChannels -/

/-- A counter of R13 or R14 below 16 counts one further without wrapping. -/
theorem count_toNat {n : BitVec 5} (h : n.toNat < 16) : (n + 1).toNat = n.toNat + 1 := by bv_omega

theorem count_ne_zero {n : BitVec 5} (h : n.toNat < 16) : n + 1 ≠ 0 := by bv_omega

theorem outputLegal_iff {o : OutputChannel} :
    outputLegal o = true ↔ o.bit.toNat ≤ 16 ∧ (o.st = .pause → o.last = false → o.bit.toNat < 16) := by
  cases hl : o.last <;> by_cases hs : o.st = .pause <;> simp [outputLegal, hl, hs]

theorem outputReset_inv (t0 : Tick) : OutputInv (outputReset t0) where
  legal := rfl
  flush := nofun
  counted := by simp [outputReset]
  strobe := nofun
  rest _ := rfl

/-- A restarted channel waits in Pause with all sixteen slots to go, whatever it was doing (R86, R87). -/
theorem outputRestart_inv (now : Tick) (o : OutputChannel) : OutputInv (outputRestart now o) where
  legal := rfl
  flush := nofun
  counted := by simp [outputRestart]
  strobe := nofun
  rest := nofun

/-- Pause: a data slot is counted, the flush slot leaves the count at 16 (R85 (d)). -/
theorem OutputInv.action_pause {o : OutputChannel} (ho : OutputInv o) (hst : o.st = .pause) :
    OutputInv (outputAction o) := by
  obtain ⟨-, hbit⟩ := outputLegal_iff.mp ho.legal
  simp only [outputAction, hst]
  cases hl : o.last with
  | true =>
    have h16 := ho.flush hl
    exact
      { legal := by simp [outputLegal, h16]
        flush := fun _ => h16
        counted := fun _ => by simp [h16]
        strobe := nofun
        rest := nofun }
  | false =>
    have h16 := hbit hst hl
    exact
      { legal := outputLegal_iff.mpr ⟨(count_toNat h16).trans_le h16, nofun⟩
        flush := nofun
        counted := fun _ => count_ne_zero h16
        strobe := nofun
        rest := nofun }

/-- DataSet: the enable pin rises (R85 (e)). -/
theorem OutputInv.action_dataSet {o : OutputChannel} (ho : OutputInv o) (hst : o.st = .dataSet) :
    OutputInv (outputAction o) := by
  simp only [outputAction, hst]
  exact
    { legal := outputLegal_iff.mpr ⟨(outputLegal_iff.mp ho.legal).1, nofun⟩
      flush := ho.flush
      counted := fun _ => ho.counted (.inl hst)
      strobe := fun _ => rfl
      rest := nofun }

/-- EnableSet: the enable pin falls, and a data slot, the flush slot or Idle follows (R85 (e)). -/
theorem OutputInv.action_enableSet {o : OutputChannel} (ho : OutputInv o) (hst : o.st = .enableSet) :
    OutputInv (outputAction o) := by
  obtain ⟨hle, -⟩ := outputLegal_iff.mp ho.legal
  simp only [outputAction, hst]
  split_ifs with hbit hl
  · exact
      { legal := outputLegal_iff.mpr ⟨hle, fun _ _ => hbit⟩
        flush := ho.flush
        counted := by simp
        strobe := nofun
        rest := nofun }
  · exact
      { legal := outputLegal_iff.mpr ⟨hle, nofun⟩
        flush := ho.flush
        counted := by simp
        strobe := nofun
        rest := fun _ => rfl }
  · exact
      { legal := outputLegal_iff.mpr ⟨hle, nofun⟩
        flush := fun _ => by bv_omega
        counted := by simp
        strobe := nofun
        rest := nofun }

theorem OutputInv.action {o : OutputChannel} (ho : OutputInv o) : OutputInv (outputAction o) := by
  cases hst : o.st with
  | idle => simpa only [outputAction, hst] using ho
  | pause => exact ho.action_pause hst
  | dataSet => exact ho.action_dataSet hst
  | enableSet => exact ho.action_enableSet hst

theorem OutputInv.update {o : OutputChannel} (ho : OutputInv o) (v : BitVec 32) (now : Tick) :
    OutputInv (outputUpdate v now o) := by
  by_cases idle : o.st = .idle
  · rwa [outputUpdate_idle idle]
  by_cases due : o.nextTick < now
  · rw [outputUpdate_acts idle due]
    exact { ho.action with }
  · rwa [outputUpdate_waits due]

/-! ### The InputChannel -/

theorem inputLegal_iff {i : InputChannel} : inputLegal i = true ↔ i.bitCount.toNat < 16 := by
  simp [inputLegal]

theorem appendSample_bit (t : Half) (pin : Bool) {k : Nat} (hk : k < 16) :
    (appendSample t pin).getLsbD k = if k = 0 then pin else t.getLsbD (k - 1) := by
  unfold appendSample
  rw [BitVec.getLsbD_append]
  cases k with
  | zero => simp
  | succ k => simp [show k < 15 by omega]

theorem appendMirrored_bit (t : Half) (pin : Bool) {k : Nat} (hk : k < 16) :
    (appendMirrored t pin).getLsbD k = if k = 15 then pin else t.getLsbD (k + 1) := by
  unfold appendMirrored
  rw [BitVec.getLsbD_append]
  by_cases newest : k = 15
  · simp [newest]
  · simp [newest, show k < 15 by omega, Nat.add_comm]

theorem reverse_bit (t : Half) {k : Nat} (hk : k < 16) : t.reverse.getLsbD k = t.getLsbD (15 - k) := by
  rw [BitVec.getLsbD_reverse, BitVec.getMsbD_eq_getLsbD]
  simp [hk]

/-- A sample appended at either end keeps the words mirror images (R34, R95 (e)). -/
theorem appendMirrored_reverse (t : Half) (pin : Bool) :
    appendMirrored t.reverse pin = (appendSample t pin).reverse := by
  apply BitVec.eq_of_getLsbD_eq
  intro k hk
  rw [appendMirrored_bit _ _ hk, reverse_bit _ hk, appendSample_bit _ _ (by omega)]
  by_cases newest : k = 15
  · simp [newest]
  · rw [if_neg newest, if_neg (by omega), reverse_bit _ (by omega), show 15 - (k + 1) = 15 - k - 1 by omega]

theorem inputReset_inv (t0 : Tick) : InputInv (inputReset t0) where
  legal := rfl
  start _ := rfl
  pulse := nofun
  load := by simp [inputReset]
  shift := by simp [inputReset]
  clock := by simp [inputReset]
  mirror := show (0 : Half) = BitVec.reverse 0 by decide
  tempMirror := show (0 : Half) = BitVec.reverse 0 by decide

/-- A sample ends the cycle with the published word, or asks for the next clock pulse (R95 (e), (f)). -/
theorem InputInv.sample {i : InputChannel} (hi : InputInv i) (hst : i.st = .serialShiftOff) (pin : Bool) :
    InputInv (inputSample pin i) := by
  have hlt := inputLegal_iff.mp hi.legal
  have load : i.loadPin ≠ true := fun h => by simp [hi.load.mp h] at hst
  have word : appendMirrored i.tempMirrored pin = (appendSample i.tempData pin).reverse := by
    rw [hi.tempMirror, appendMirrored_reverse]
  unfold inputSample
  split_ifs with last
  · exact
      { legal := rfl
        start := fun _ => rfl
        pulse := nofun
        load := by simpa using load
        shift := by simp
        clock := by simp
        mirror := word
        tempMirror := word }
  · have count : i.bitCount.toNat < 15 := by bv_omega
    exact
      { legal := inputLegal_iff.mpr ((count_toNat hlt).trans_lt (by omega))
        start := by simp
        pulse := fun _ => count_ne_zero hlt
        load := by simpa using load
        shift := fun _ => hi.shift (.inl hst)
        clock := by simp
        mirror := hi.mirror
        tempMirror := word }

/-- Each action sets the pins of the state it enters (R95 (c) to (g)). -/
theorem InputInv.action {i : InputChannel} (hi : InputInv i) (pin : Bool) : InputInv (inputAction pin i) := by
  cases hst : i.st <;> simp only [inputAction, hst]
  case idle =>
    exact
      { legal := hi.legal
        start := fun _ => hi.start (.inl hst)
        pulse := nofun
        load := by simp
        shift := by simp
        clock := by simp
        mirror := hi.mirror
        tempMirror := hi.tempMirror }
  case loadingData =>
    have unsampled : i.bitCount = 0 := hi.start (.inr hst)
    have low : i.clockPin ≠ true := fun h => by simp [(hi.clock.mp h).1] at hst
    exact
      { legal := hi.legal
        start := by simp
        pulse := nofun
        load := by simp
        shift := fun _ => rfl
        clock := by simpa [unsampled] using low
        mirror := hi.mirror
        tempMirror := hi.tempMirror }
  case serialShiftOff => exact hi.sample hst pin
  case shiftClockOn =>
    have sampled : i.bitCount ≠ 0 := hi.pulse hst
    have load : i.loadPin ≠ true := fun h => by simp [hi.load.mp h] at hst
    exact
      { legal := hi.legal
        start := by simp
        pulse := nofun
        load := by simpa using load
        shift := fun _ => hi.shift (.inr hst)
        clock := by simpa using sampled
        mirror := hi.mirror
        tempMirror := hi.tempMirror }

theorem InputInv.update {i : InputChannel} (hi : InputInv i) (v : BitVec 32) (now : Tick) (pin : Bool) :
    InputInv (inputUpdate v now pin i) := by
  by_cases due : i.nextTick < now
  · rw [inputUpdate_acts due]
    exact { hi.action pin with }
  · rwa [inputUpdate_waits due]

/-! ### The sequencer -/

theorem seqReset_inv (c : Config) (t0 : Tick) : SeqInv c (seqReset c t0) where
  legal := rfl
  freq_ne := c.progFreqReset_ne
  ticks P hP := by cases hP; rfl

/-- A write of step, mode or deadline keeps the invariant when the step stays inside the active Program. -/
theorem SeqInv.move {c : Config} {q : ProgramControl} (hq : SeqInv c q) {P : ProgEntry}
    (hP : progRead c q.curProg.toNat = some P) {step : BitVec 8} (hs : step.toNat < P.len.toNat) (m : SeqMode)
    (t : Tick) : SeqInv c { q with step := step, mode := m, nextTick := t } :=
  ⟨seqLegal_iff.mpr ⟨P, hP, hs⟩, hq.freq_ne, hq.ticks⟩

/-- A write of mode or deadline alone keeps the invariant. -/
theorem SeqInv.set_mode {c : Config} {q : ProgramControl} (hq : SeqInv c q) (m : SeqMode) (t : Tick) :
    SeqInv c { q with mode := m, nextTick := t } :=
  { hq with }

/-- An index inside the table fits the 8-bit register (D34). -/
theorem setWidth_toNat_of_progRead {c : Config} {n : BitVec 16} {P : ProgEntry}
    (hP : progRead c n.toNat = some P) : (n.setWidth 8).toNat = n.toNat := by
  have inside : n.toNat < progCount c := progRead_isSome.mp (by rw [hP]; rfl)
  have fits := progCount_le c
  rw [BitVec.toNat_setWidth]
  exact Nat.mod_eq_of_lt (by omega)

/-- A selected Program stands at step 0 with its own divider (R110). -/
theorem SeqInv.select {c : Config} {q : ProgramControl} (hq : SeqInv c q) {n : BitVec 16} {P : ProgEntry}
    (hP : progRead c n.toNat = some P) :
    SeqInv c
      { q with
        curProg := n.setWidth 8, step := 0, nextTick := 0, mode := .manual,
        ticksPerStep := seqTicks c.tickFreq q.freq P } := by
  rw [← setWidth_toNat_of_progRead hP] at hP
  exact
    { legal := seqLegal_iff.mpr ⟨P, hP, P.len_pos⟩
      freq_ne := hq.freq_ne
      ticks := fun Q hQ => by cases hP.symm.trans hQ; rfl }

/-- A new frequency comes with the divider of the active Program (R111). -/
theorem SeqInv.set_freq {c : Config} {q : ProgramControl} (hq : SeqInv c q) {f : BitVec 16} (hf : f ≠ 0)
    {P : ProgEntry} (hP : progRead c q.curProg.toNat = some P) :
    SeqInv c { q with freq := f, ticksPerStep := seqTicks c.tickFreq f P } where
  legal := hq.legal
  freq_ne := hf
  ticks Q hQ := by cases hP.symm.trans hQ; rfl

end Sys2Proof.Machine

/-! PROOFS. Every step keeps the invariant: the register writes, the updates of a pass and the commands. -/

namespace Sys2Proof.Machine

/-! ### Register writes -/

/-- A property of all units of a bank survives a write of one of them, if the new unit has it. -/
theorem Two.forall_get_set {α : Type} {p : α → Prop} {t : Two α} (ht : ∀ j, p (Two.get t j)) (i : Fin 2) {a : α}
    (ha : p a) (j : Fin 2) : p (Two.get (Two.set t i a) j) := by
  by_cases h : j = i
  · rwa [h, Two.get_set_self]
  · rw [Two.get_set_of_ne t i j a h]; exact ht j

theorem Four.forall_get_set {α : Type} {p : α → Prop} {t : Four α} (ht : ∀ j, p (Four.get t j)) (i : Fin 4)
    {a : α} (ha : p a) (j : Fin 4) : p (Four.get (Four.set t i a) j) := by
  by_cases h : j = i
  · rwa [h, Four.get_set_self]
  · rw [Four.get_set_of_ne t i j a h]; exact ht j

section
variable {s t : State}

theorem State.Inv.setBtn (hs : s.Inv) (i : Fin 2) {b : Button} (hb : ButtonInv b) : (s.setBtn i b).Inv :=
  { hs with btn := Two.forall_get_set hs.btn i hb }

theorem State.Inv.setClk (hs : s.Inv) (i : Fin 2) {c : Clock} (hc : ClockInv s.cfg.tickFreq c) :
    (s.setClk i c).Inv :=
  { hs with clk := Two.forall_get_set hs.clk i hc }

theorem State.Inv.setOut (hs : s.Inv) (ch : Fin 4) {o : OutputChannel} (ho : OutputInv o) : (s.setOut ch o).Inv :=
  { hs with out := Four.forall_get_set hs.out ch ho }

theorem State.Inv.setInp (hs : s.Inv) {i : InputChannel} (hi : InputInv i) : (s.setInp i).Inv :=
  { hs with inp := hi }

theorem State.Inv.setSeq (hs : s.Inv) {q : ProgramControl} (hq : SeqInv s.cfg q) : (s.setSeq q).Inv :=
  { hs with seq := hq }

theorem State.Inv.setCmdOk (hs : s.Inv) (b : Bool) : (s.setCmdOk b).Inv := { hs with }

theorem State.Inv.accept (hs : s.Inv) : s.accept.Inv := hs.setCmdOk true

theorem State.Inv.refuse (hs : s.Inv) : s.refuse.Inv := hs.setCmdOk false

/-- The inputs of the next pass are no registers. -/
theorem State.Inv.nextEdge (hs : s.Inv) : s.nextEdge.Inv := by
  unfold State.nextEdge
  split <;> exact { hs with }

/-- Every legal configuration has legal values after reset (R135, R20). -/
theorem State.afterReset_inv (c : Config) (t0 : Tick) (p : InPorts) (ps : List InPorts) (n : Nat) :
    (State.afterReset c t0 p ps n).Inv where
  btn i := by fin_cases i <;> exact buttonReset_inv t0
  clk i := by
    fin_cases i
    · exact clockReset_inv _ c.clkFreqReset0_ne t0
    · exact clockReset_inv _ c.clkFreqReset1_ne t0
  out ch := by fin_cases ch <;> exact outputReset_inv t0
  inp := inputReset_inv t0
  seq := seqReset_inv c t0

/-! ### The updates of a pass -/

theorem State.Inv.updateButton (hs : s.Inv) (i : Fin 2) : (s.updateButton i).Inv :=
  hs.setBtn i ((hs.btn i).update _ _ _)

theorem State.Inv.updateClock (hs : s.Inv) (i : Fin 2) : (s.updateClock i).Inv :=
  hs.setClk i ((hs.clk i).update _ _)

theorem State.Inv.updateOutput (hs : s.Inv) (ch : Fin 4) : (s.updateOutput ch).Inv :=
  hs.setOut ch ((hs.out ch).update _ _)

theorem State.Inv.updateInput (hs : s.Inv) : s.updateInput.Inv :=
  hs.setInp (hs.inp.update _ _ _)

theorem State.Inv.clockSetPin (hs : s.Inv) (i : Fin 2) (v : Bool) : (s.clockSetPin i v).Inv :=
  hs.setClk i { hs.clk i with }

theorem State.Inv.push (hs : s.Inv) (P : ProgEntry) (step : BitVec 8) : (s.push P step).Inv :=
  (hs.clockSetPin 0 _).clockSetPin 1 _

/-- The next step is inside the active Program, since it is taken modulo its length (R108, R109). -/
theorem State.Inv.advanceStep (hs : s.Inv) {P : ProgEntry} (hP : s.activeProgram = some P) :
    (s.advanceStep P).Inv :=
  (hs.setSeq (hs.seq.move hP (nextStep_lt _ P) _ _)).push P _

theorem State.Inv.enterOneShot (hs : s.Inv) : s.enterOneShot.Inv := by
  unfold State.enterOneShot
  split
  · exact hs.setSeq (hs.seq.set_mode _ _)
  · exact hs

theorem State.enterOneShot_activeProgram (s : State) : s.enterOneShot.activeProgram = s.activeProgram := by
  unfold State.enterOneShot
  split <;> rfl

theorem State.Inv.seqManual (hs : s.Inv) {P : ProgEntry} (hP : s.activeProgram = some P) :
    (s.seqManual P).Inv := by
  unfold State.seqManual
  split
  · exact hs.enterOneShot.advanceStep (s.enterOneShot_activeProgram.trans hP)
  · exact hs.enterOneShot

theorem State.Inv.seqTimed (hs : s.Inv) {P : ProgEntry} (hP : s.activeProgram = some P) :
    (s.seqTimed P).Inv := by
  unfold State.seqTimed
  split
  · exact (hs.setSeq (hs.seq.set_mode _ _)).advanceStep hP
  · exact hs

theorem State.Inv.seqUpdate (hs : s.Inv) {P : ProgEntry} (hP : s.activeProgram = some P) :
    (s.seqUpdate P).Inv := by
  unfold State.seqUpdate
  split
  · exact hs.seqManual hP
  · exact hs.seqTimed hP
  · exact hs.seqTimed hP

theorem State.Inv.updateLines (hs : s.Inv) : s.updateLines.Inv := by
  unfold State.updateLines
  split
  · exact (hs.updateClock 0).updateClock 1
  · split
    next P hP => exact hs.seqUpdate hP
    next => exact hs

theorem State.Inv.updates (hs : s.Inv) : s.updates.Inv :=
  (((((((hs.updateButton 0).updateButton 1).updateLines).updateOutput 0).updateOutput 1).updateOutput
    2).updateOutput 3).updateInput

/-! ### Commands -/

theorem State.Inv.syncClocks (hs : s.Inv) (deadline : Tick) : (s.syncClocks deadline).Inv := by
  unfold State.syncClocks
  split
  · exact hs.setClk 1 { hs.clk 1 with }
  · exact hs

theorem State.Inv.execOset (hs : s.Inv) {ch : BitVec 8} {v : BitVec 16} (h : execOset ch v s = .next t) :
    t.Inv := by
  cases h
  split
  next k _ => exact hs.accept.setOut k { outputRestart_inv s.now (Four.get s.out k) with }
  next => exact hs.refuse

theorem State.Inv.execOrev (hs : s.Inv) {ch : BitVec 8} (h : execOrev ch s = .next t) : t.Inv := by
  cases h
  split
  next k _ => exact hs.accept.setOut k { outputRestart_inv s.now (Four.get s.out k) with }
  next => exact hs.refuse

theorem State.Inv.execPsel (hs : s.Inv) {n : BitVec 16} (h : execPsel n s = .next t) : t.Inv := by
  cases h
  split
  next P hP => exact hs.accept.setSeq (hs.seq.select hP)
  next => exact hs.refuse

theorem State.Inv.execCfreq (hs : s.Inv) {c : BitVec 8} {f : BitVec 16} (h : execCfreq c f s = .next t) :
    t.Inv := by
  cases h
  split
  next i _ =>
    split
    next => exact hs.refuse
    next hf => exact hs.accept.setClk i (clockSetFreq_inv _ hf _)
  next => exact hs.refuse

theorem State.Inv.execPfreq (hs : s.Inv) {f : BitVec 16} (h : execPfreq f s = .next t) : t.Inv := by
  unfold Machine.execPfreq at h
  split at h
  next => cases h; exact hs.refuse
  next hf =>
    split at h
    next P hP => cases h; exact hs.accept.setSeq (hs.seq.set_freq hf hP)
    next => cases h

theorem State.Inv.execCauto (hs : s.Inv) {c : BitVec 8} (h : execCauto c s = .next t) : t.Inv := by
  cases h
  split
  next i _ => exact hs.accept.setClk i { hs.clk i with }
  next => exact hs.refuse

theorem State.Inv.exec (hs : s.Inv) {i : Instr} (h : exec i s = .next t) : t.Inv := by
  cases i with
  | nop => cases h; exact hs.accept
  | oset ch v => exact hs.execOset h
  | orev ch => exact hs.execOrev h
  | psel n => exact hs.execPsel h
  | cfreq c f => exact hs.execCfreq h
  | pfreq f => exact hs.execPfreq h
  | cauto c => exact hs.execCauto h
  | csync => cases h; exact hs.accept.syncClocks _
  | csynco => cases h; exact hs.accept.syncClocks _
  | pauto => cases h; exact hs.accept.setSeq (hs.seq.set_mode _ _)
  | iack => cases h; exact hs.accept.setInp { hs.inp with }

theorem State.Inv.takeCommand (hs : s.Inv) (h : s.takeCommand = .next t) : t.Inv := by
  unfold State.takeCommand at h
  split at h
  next =>
    split at h
    next => exact hs.exec h
    next => cases h; exact hs.refuse
  next => cases h; exact hs

end

/-- Settles O52: a reset pass leaves the reset values, and any other pass is a command and the updates, each of
which keeps the invariant of the machine it writes. -/
theorem everyStepKeepsTheInvariant : Obligations.EveryStepKeepsTheInvariant := by
  intro s t hs h
  rcases step_cases h with ⟨-, rfl⟩ | ⟨-, -, u, hu, rfl⟩
  · exact (State.afterReset_inv s.cfg s.now s.ports s.upcoming s.envIndex).nextEdge
  · exact (hs.takeCommand hu).updates.nextEdge

end Sys2Proof.Machine

/-! SUPPORT. The frame of a command: what none of the eleven commands writes (R42, R22, R86, R87). -/

namespace Sys2Proof.Machine

/-- What `t` shares with `s` when only commands stand between them: the parameters with the Program table, the
Buttons, the pin registers of the channels and of the receiver, and the environment's inputs. -/
structure State.CommandFrame (s t : State) : Prop where
  cfg : t.cfg = s.cfg
  btn : t.btn = s.btn
  dataPin : ∀ ch, (Four.get t.out ch).dataPin = (Four.get s.out ch).dataPin
  enablePin : ∀ ch, (Four.get t.out ch).enablePin = (Four.get s.out ch).enablePin
  loadPin : t.inp.loadPin = s.inp.loadPin
  shiftPin : t.inp.shiftPin = s.inp.shiftPin
  clockPin : t.inp.clockPin = s.inp.clockPin
  ports : t.ports = s.ports
  upcoming : t.upcoming = s.upcoming
  envIndex : t.envIndex = s.envIndex

/-- A write of one unit that keeps what `f` reads of it keeps what `f` reads of every unit. -/
theorem Four.read_set_of_eq {α β : Type} (f : α → β) {t : Four α} {i : Fin 4} {a : α} (h : f a = f (Four.get t i))
    (j : Fin 4) : f (Four.get (Four.set t i a) j) = f (Four.get t j) := by
  by_cases hj : j = i
  · rw [hj, Four.get_set_self, h]
  · rw [Four.get_set_of_ne t i j a hj]

section
variable {s t : State}

/-! ### Register writes -/

theorem State.CommandFrame.accept (s : State) : s.CommandFrame s.accept := by constructor <;> intros <;> rfl

theorem State.CommandFrame.refuse (s : State) : s.CommandFrame s.refuse := by constructor <;> intros <;> rfl

theorem State.CommandFrame.setClk (h : s.CommandFrame t) (i : Fin 2) (c : Clock) : s.CommandFrame (t.setClk i c) :=
  { h with }

theorem State.CommandFrame.setSeq (h : s.CommandFrame t) (q : ProgramControl) : s.CommandFrame (t.setSeq q) :=
  { h with }

/-- A write of a channel that keeps its two pins. -/
theorem State.CommandFrame.setOut (h : s.CommandFrame t) (ch : Fin 4) {o : OutputChannel}
    (hd : o.dataPin = (Four.get t.out ch).dataPin) (he : o.enablePin = (Four.get t.out ch).enablePin) :
    s.CommandFrame (t.setOut ch o) :=
  { h with
    dataPin := fun k => (Four.read_set_of_eq OutputChannel.dataPin hd k).trans (h.dataPin k)
    enablePin := fun k => (Four.read_set_of_eq OutputChannel.enablePin he k).trans (h.enablePin k) }

/-- A write of `data_changed` alone. -/
theorem State.CommandFrame.setDataChanged (h : s.CommandFrame t) (b : Bool) :
    s.CommandFrame (t.setInp { t.inp with dataChanged := b }) :=
  { h with }

theorem State.CommandFrame.syncClocks (h : s.CommandFrame t) (deadline : Tick) :
    s.CommandFrame (t.syncClocks deadline) := by
  unfold State.syncClocks
  split
  · exact h.setClk 1 _
  · exact h

/-! ### Commands -/

/-- A restart of a channel leaves its pins where they are (R86, R87). -/
theorem State.CommandFrame.execOset {ch : BitVec 8} {v : BitVec 16} (h : execOset ch v s = .next t) :
    s.CommandFrame t := by
  cases h
  split
  next k _ => exact (accept s).setOut k rfl rfl
  next => exact refuse s

theorem State.CommandFrame.execOrev {ch : BitVec 8} (h : execOrev ch s = .next t) : s.CommandFrame t := by
  cases h
  split
  next k _ => exact (accept s).setOut k rfl rfl
  next => exact refuse s

theorem State.CommandFrame.execPsel {n : BitVec 16} (h : execPsel n s = .next t) : s.CommandFrame t := by
  cases h
  split
  next => exact (accept s).setSeq _
  next => exact refuse s

theorem State.CommandFrame.execCfreq {c : BitVec 8} {f : BitVec 16} (h : execCfreq c f s = .next t) :
    s.CommandFrame t := by
  cases h
  split
  next i _ =>
    split
    next => exact refuse s
    next => exact (accept s).setClk i _
  next => exact refuse s

theorem State.CommandFrame.execPfreq {f : BitVec 16} (h : execPfreq f s = .next t) : s.CommandFrame t := by
  unfold Machine.execPfreq at h
  split at h
  next => cases h; exact refuse s
  next =>
    split at h
    next => cases h; exact (accept s).setSeq _
    next => cases h

theorem State.CommandFrame.execCauto {c : BitVec 8} (h : execCauto c s = .next t) : s.CommandFrame t := by
  cases h
  split
  next i _ => exact (accept s).setClk i _
  next => exact refuse s

theorem State.CommandFrame.exec {i : Instr} (h : exec i s = .next t) : s.CommandFrame t := by
  cases i with
  | nop => cases h; exact accept s
  | oset ch v => exact execOset h
  | orev ch => exact execOrev h
  | psel n => exact execPsel h
  | cfreq c f => exact execCfreq h
  | pfreq f => exact execPfreq h
  | cauto c => exact execCauto h
  | csync => cases h; exact (accept s).syncClocks _
  | csynco => cases h; exact (accept s).syncClocks _
  | pauto => cases h; exact (accept s).setSeq _
  | iack => cases h; exact (accept s).setDataChanged false

theorem State.takeCommand_cfg (h : s.takeCommand = .next t) : t.cfg = s.cfg := by
  unfold State.takeCommand at h
  split at h
  next =>
    split at h
    next => exact (CommandFrame.exec h).cfg
    next => cases h; rfl
  next => cases h; rfl

end

/-- Settles O24: the frame of a command, with `ProgRead` of the unchanged parameters. -/
theorem commandsWriteNoPinAndNoTable : Obligations.CommandsWriteNoPinAndNoTable := by
  intro i s t h
  have frame := State.CommandFrame.exec h
  exact ⟨frame.cfg, fun n => by rw [frame.cfg], frame.btn, fun ch => ⟨frame.dataPin ch, frame.enablePin ch⟩,
    frame.loadPin, frame.shiftPin, frame.clockPin, frame.ports, frame.upcoming, frame.envIndex⟩

end Sys2Proof.Machine

/-! PROOFS. The Program table and the states outside its reach (R31, R32, R38, R42, I11, I12). -/

namespace Sys2Proof.Machine

/-! ### Runs -/

/-- A run of at least one pass that ends in a next state is that pass and then the rest. -/
theorem runOn_cons {p : InPorts} {ps : List InPorts} {s t : State} :
    runOn (p :: ps) s = .next t ↔ ∃ u, passOn p s = .next u ∧ runOn ps u = .next t := by
  rw [runOn]
  split
  next u hu => simp [hu]
  next hu => simp [hu]
  next hu => simp [hu]

/-- What every pass keeps holds after every run. -/
theorem runOn_keeps {P : State → Prop} (kept : ∀ p u v, passOn p u = .next v → P u → P v) {ps : List InPorts}
    {s t : State} (h : runOn ps s = .next t) (hs : P s) : P t := by
  induction ps generalizing s with
  | nil => cases h; exact hs
  | cons p ps ih =>
    obtain ⟨u, hu, ht⟩ := runOn_cons.mp h
    exact ih ht (kept p s u hu hs)

/-- A step keeps the parameters: reset does (R135), a command does, and the updates do (R42). -/
theorem step_cfg {s t : State} (h : step s = .next t) : t.cfg = s.cfg := by
  rcases step_cases h with ⟨-, rfl⟩ | ⟨-, -, u, hu, rfl⟩
  · rw [State.nextEdge_cfg, State.resetPass, State.afterReset_cfg]
  · rw [State.nextEdge_cfg, State.updates_cfg, State.takeCommand_cfg hu]

theorem passOn_cfg {p : InPorts} {s t : State} (h : passOn p s = .next t) : t.cfg = s.cfg :=
  step_cfg (s := { s with ports := p }) h

/-- Settles O48: the parameters, the Program table among them, are what every pass keeps. -/
theorem programTableNeverChanges : Obligations.ProgramTableNeverChanges := by
  intro ps s t h
  have unchanged : t.cfg = s.cfg :=
    runOn_keeps (P := fun u => u.cfg = s.cfg) (fun _ _ _ hv hu => (passOn_cfg hv).trans hu) h rfl
  exact ⟨unchanged, fun n => by rw [unchanged]⟩

/-! ### The table and its entries -/

theorem exists_progRead_iff {c : Config} {i : Nat} : (∃ P, progRead c i = some P) ↔ i < progCount c := by
  rw [← Option.isSome_iff_exists, progRead_isSome]

/-- Settles O49: the table's sizes are those of R4, and an entry carries the range of its length (R15). -/
theorem progReadAnswersInsideTheTable : Obligations.ProgReadAnswersInsideTheTable := by
  intro c n
  have nonempty : 1 ≤ progCount c := by rw [progCount_eq]; omega
  exact ⟨exists_progRead_iff, progRead_zero c, nonempty, c.table_le, c.max_le, fun P _ => ⟨P.len_pos, P.len_le⟩⟩

/-- Settles O34: at a step below `len` both signals are read at index `len - s - 1`, which is below `len`. -/
theorem maskBitsAboveLengthAreUnused : Obligations.MaskBitsAboveLengthAreUnused := by
  intro P Q n sameLen inside agree
  have used : P.len.toNat - n.toNat - 1 < P.len.toNat := by omega
  obtain ⟨agree0, agree1⟩ := agree _ used
  refine ⟨?_, rfl⟩
  rw [signals, signals, ← sameLen, agree0, agree1]

/-! ### States from which no rule defines behaviour -/

/-- A pass without reset from a state that is not legal is refused (I11). -/
theorem step_of_not_legal {s : State} (hr : s.ports.rst = false) (hl : s.legal = false) :
    step s = .refused .unreachableState := by
  simp [step, State.pass, hr, hl]

/-- PFREQ has no entry to read when `cur_prog` is no index of the table (R31). -/
theorem execPfreq_of_no_entry {s : State} {f : BitVec 16} (hf : f ≠ 0) (hP : s.activeProgram = none) :
    execPfreq f s = .refused .unreachableState := by
  rw [execPfreq, if_neg hf, hP]

/-- Settles O51: legality is the conjunction of each machine's own range. -/
theorem unreachableStatesAreRefused : Obligations.UnreachableStatesAreRefused := by
  intro s
  refine ⟨step_of_not_legal, ?ranges, fun f hf hP => execPfreq_of_no_entry hf hP⟩
  case ranges =>
    rw [State.legal_iff, seqLegal_iff, inputLegal_iff, Nat.lt_succ_iff]
    simp only [outputLegal_iff]

end Sys2Proof.Machine

/-! SUPPORT. The fields of a word, the checks of a row, and the one law of the decoder: it answers exactly the
well-formed command that has the word's fields (R45 to R49). -/

namespace Sys2Proof

/-! ### Three fields put together, at any widths (R45, R50) -/

section
variable {n m k : Nat}

theorem append_extracted_fields (w : BitVec (n + m + k)) :
    w.extractLsb' (m + k) n ++ w.extractLsb' k m ++ w.extractLsb' 0 k = w := by
  apply BitVec.eq_of_getLsbD_eq
  intro j hj
  simp only [BitVec.getLsbD_append, BitVec.getLsbD_extractLsb']
  split
  next low => simp [low]
  next =>
    split
    next mid => simp [mid, show k + (j - k) = j by omega]
    next => simp [show j - k - m < n by omega, show m + k + (j - k - m) = j by omega]

variable (a : BitVec n) (b : BitVec m) (c : BitVec k)

theorem extract_high_append : (a ++ b ++ c).extractLsb' (m + k) n = a := by
  rw [BitVec.extractLsb'_append_eq_of_le (by omega), Nat.add_sub_cancel, BitVec.extractLsb'_append_eq_left]

theorem extract_mid_append : (a ++ b ++ c).extractLsb' k m = b := by
  rw [BitVec.extractLsb'_append_eq_of_le (by omega), Nat.sub_self, BitVec.extractLsb'_append_eq_right]

theorem extract_low_append : (a ++ b ++ c).extractLsb' 0 k = c := BitVec.extractLsb'_append_eq_right

end

/-- A command word is its three fields (R46). -/
theorem fields_of_word (w : CmdWord) : opField w ++ idxField w ++ immField w = w :=
  append_extracted_fields (n := 8) (m := 8) (k := 16) w

theorem fields_of_encode (i : Instr) :
    opField (encode i) = i.op ∧ idxField (encode i) = i.idx ∧ immField (encode i) = i.imm :=
  Laws.EncodedFields.fields_append i.op i.idx i.imm

/-- Two command words with the same fields are the same word. -/
theorem word_eq_iff {w v : CmdWord} :
    w = v ↔ opField w = opField v ∧ idxField w = idxField v ∧ immField w = immField v := by
  refine ⟨fun h => h ▸ ⟨rfl, rfl, rfl⟩, fun ⟨hop, hidx, himm⟩ => ?_⟩
  rw [← fields_of_word w, ← fields_of_word v, hop, hidx, himm]

/-! ### The checks of a row -/

section
variable {n : Nat} {idx : BitVec 8} {imm : BitVec 16} {r : Except DecodeError Instr} {i j : Instr}

@[simp] theorem withUnit_eq_ok : withUnit n idx r = .ok i ↔ idx.toNat < n ∧ r = .ok i := by
  unfold withUnit; split <;> simp_all

@[simp] theorem withZeroIdx_eq_ok : withZeroIdx idx r = .ok i ↔ idx = 0 ∧ r = .ok i := by
  unfold withZeroIdx; split <;> simp_all

@[simp] theorem withZeroImm_eq_ok : withZeroImm imm j = .ok i ↔ imm = 0 ∧ j = i := by
  unfold withZeroImm; split <;> simp_all

@[simp] theorem withUnit_refuses :
    (∃ e, withUnit n idx r = .error e) ↔ n ≤ idx.toNat ∨ ∃ e, r = .error e := by
  unfold withUnit
  split
  next h => simp [Nat.not_le.mpr h]
  next h => simp [Nat.not_lt.mp h]

@[simp] theorem withZeroIdx_refuses :
    (∃ e, withZeroIdx idx r = .error e) ↔ idx ≠ 0 ∨ ∃ e, r = .error e := by
  unfold withZeroIdx; split <;> simp_all

@[simp] theorem withZeroImm_refuses : (∃ e, withZeroImm imm j = .error e) ↔ imm ≠ 0 := by
  unfold withZeroImm; split <;> simp_all

end

/-! ### The rows of the decoder (R48) -/

/-- The operation codes: one for each row, and those of no row. -/
theorem op_cases (op : BitVec 8) :
    op = 0x00 ∨ op = 0x01 ∨ op = 0x02 ∨ op = 0x03 ∨ op = 0x04 ∨ op = 0x05 ∨ op = 0x06 ∨ op = 0x07 ∨
      op = 0x08 ∨ op = 0x09 ∨ op = 0x0A ∨ 0x0B ≤ op.toNat := by
  bv_omega

section
variable {op : BitVec 8} (idx : BitVec 8) (imm : BitVec 16)

theorem decodeFields_nop : decodeFields 0x00 idx imm = withZeroIdx idx (withZeroImm imm .nop) := rfl
theorem decodeFields_oset : decodeFields 0x01 idx imm = withUnit 4 idx (.ok (.oset idx imm)) := rfl
theorem decodeFields_orev : decodeFields 0x02 idx imm = withUnit 4 idx (withZeroImm imm (.orev idx)) := rfl
theorem decodeFields_psel : decodeFields 0x03 idx imm = withZeroIdx idx (.ok (.psel imm)) := rfl
theorem decodeFields_cfreq : decodeFields 0x04 idx imm = withUnit 2 idx (.ok (.cfreq idx imm)) := rfl
theorem decodeFields_pfreq : decodeFields 0x05 idx imm = withZeroIdx idx (.ok (.pfreq imm)) := rfl
theorem decodeFields_cauto : decodeFields 0x06 idx imm = withUnit 2 idx (withZeroImm imm (.cauto idx)) := rfl
theorem decodeFields_csync : decodeFields 0x07 idx imm = withZeroIdx idx (withZeroImm imm .csync) := rfl
theorem decodeFields_csynco : decodeFields 0x08 idx imm = withZeroIdx idx (withZeroImm imm .csynco) := rfl
theorem decodeFields_pauto : decodeFields 0x09 idx imm = withZeroIdx idx (withZeroImm imm .pauto) := rfl
theorem decodeFields_iack : decodeFields 0x0A idx imm = withZeroIdx idx (withZeroImm imm .iack) := rfl

theorem decodeFields_unknown (h : 0x0B ≤ op.toNat) : decodeFields op idx imm = .error .unknownOp := by
  unfold decodeFields
  split
  case h_12 => rfl
  all_goals omega

end

/-- A well-formed command passes every check of its row. -/
theorem decodeFields_of_wf {i : Instr} (h : i.wf = true) : decodeFields i.op i.idx i.imm = .ok i := by
  cases i with
  | nop => exact decodeFields_nop 0 0
  | oset ch v => exact (decodeFields_oset ch v).trans (withUnit_eq_ok.mpr ⟨of_decide_eq_true h, rfl⟩)
  | orev ch => exact (decodeFields_orev ch 0).trans (withUnit_eq_ok.mpr ⟨of_decide_eq_true h, rfl⟩)
  | psel n => exact decodeFields_psel 0 n
  | cfreq c f => exact (decodeFields_cfreq c f).trans (withUnit_eq_ok.mpr ⟨of_decide_eq_true h, rfl⟩)
  | pfreq f => exact decodeFields_pfreq 0 f
  | cauto c => exact (decodeFields_cauto c 0).trans (withUnit_eq_ok.mpr ⟨of_decide_eq_true h, rfl⟩)
  | csync => exact decodeFields_csync 0 0
  | csynco => exact decodeFields_csynco 0 0
  | pauto => exact decodeFields_pauto 0 0
  | iack => exact decodeFields_iack 0 0

/-- A row without unit and operand answers its command to the word whose other fields are 0. -/
theorem fields_of_bareRow {idx : BitVec 8} {imm : BitVec 16} {i j : Instr} (hwf : j.wf = true) (noIdx : j.idx = 0)
    (noImm : j.imm = 0) (h : withZeroIdx idx (withZeroImm imm j) = .ok i) :
    i.wf = true ∧ i.op = j.op ∧ i.idx = idx ∧ i.imm = imm := by
  obtain ⟨rfl, row⟩ := withZeroIdx_eq_ok.mp h
  obtain ⟨rfl, rfl⟩ := withZeroImm_eq_ok.mp row
  exact ⟨hwf, rfl, noIdx, noImm⟩

/-- What passes the checks of its row has lost no bit: the checks say what the fields without operand hold. -/
theorem fields_of_decodeFields {op idx : BitVec 8} {imm : BitVec 16} {i : Instr}
    (h : decodeFields op idx imm = .ok i) : i.wf = true ∧ i.op = op ∧ i.idx = idx ∧ i.imm = imm := by
  rcases op_cases op with rfl | rfl | rfl | rfl | rfl | rfl | rfl | rfl | rfl | rfl | rfl | unknown
  · exact fields_of_bareRow rfl rfl rfl ((decodeFields_nop idx imm).symm.trans h)
  · rw [decodeFields_oset, withUnit_eq_ok] at h
    obtain ⟨inBank, ⟨⟩⟩ := h
    exact ⟨decide_eq_true inBank, rfl, rfl, rfl⟩
  · rw [decodeFields_orev, withUnit_eq_ok, withZeroImm_eq_ok] at h
    obtain ⟨inBank, rfl, rfl⟩ := h
    exact ⟨decide_eq_true inBank, rfl, rfl, rfl⟩
  · rw [decodeFields_psel, withZeroIdx_eq_ok] at h
    obtain ⟨rfl, ⟨⟩⟩ := h
    exact ⟨rfl, rfl, rfl, rfl⟩
  · rw [decodeFields_cfreq, withUnit_eq_ok] at h
    obtain ⟨inBank, ⟨⟩⟩ := h
    exact ⟨decide_eq_true inBank, rfl, rfl, rfl⟩
  · rw [decodeFields_pfreq, withZeroIdx_eq_ok] at h
    obtain ⟨rfl, ⟨⟩⟩ := h
    exact ⟨rfl, rfl, rfl, rfl⟩
  · rw [decodeFields_cauto, withUnit_eq_ok, withZeroImm_eq_ok] at h
    obtain ⟨inBank, rfl, rfl⟩ := h
    exact ⟨decide_eq_true inBank, rfl, rfl, rfl⟩
  · exact fields_of_bareRow rfl rfl rfl ((decodeFields_csync idx imm).symm.trans h)
  · exact fields_of_bareRow rfl rfl rfl ((decodeFields_csynco idx imm).symm.trans h)
  · exact fields_of_bareRow rfl rfl rfl ((decodeFields_pauto idx imm).symm.trans h)
  · exact fields_of_bareRow rfl rfl rfl ((decodeFields_iack idx imm).symm.trans h)
  · rw [decodeFields_unknown idx imm unknown] at h
    cases h

/-- The decoder answers a command exactly when it is well formed and the word is its encoding (R46, R48). -/
theorem decode_eq_ok_iff {w : CmdWord} {i : Instr} : decode w = .ok i ↔ i.wf = true ∧ encode i = w := by
  rw [decode, word_eq_iff]
  obtain ⟨hop, hidx, himm⟩ := fields_of_encode i
  rw [hop, hidx, himm]
  constructor
  · exact fields_of_decodeFields
  · rintro ⟨hwf, rop, ridx, rimm⟩
    rw [← rop, ← ridx, ← rimm]
    exact decodeFields_of_wf hwf

end Sys2Proof

/-! PROOFS. Decoder and encoder undo each other, and the map's masks agree with the decoder (R45 to R49). -/

namespace Sys2Proof

/-- Settles O1: the law of the decoder at the word of the command. -/
theorem decodeInvertsEncode : Obligations.DecodeInvertsEncode :=
  fun _ hwf => decode_eq_ok_iff.mpr ⟨hwf, rfl⟩

/-- Settles O2: the law of the decoder, read from the word. -/
theorem encodeInvertsDecode : Obligations.EncodeInvertsDecode :=
  fun _ _ h => decode_eq_ok_iff.mp h

/-- Settles O5: each word written out is evaluated. -/
theorem exampleWordsDecode : Obligations.ExampleWordsDecode := by
  unfold Obligations.ExampleWordsDecode
  decide

/-! ### The columns "mask" and "match" of the opcode map (R48) -/

/-- The bits of `idx` that the row of a command fixes at 0: all where it names no unit, else those above its
unit numbers. -/
def Instr.idxMask : Instr → BitVec 8
  | .oset _ _ | .orev _ => 0xFC
  | .cfreq _ _ | .cauto _ => 0xFE
  | _ => 0xFF

/-- The bits of `imm` that the row of a command fixes at 0: all where it has no operand there. -/
def Instr.immMask : Instr → BitVec 16
  | .oset _ _ | .psel _ | .cfreq _ _ | .pfreq _ => 0
  | _ => 0xFFFF

theorem row_mask (i : Instr) : i.row.mask = (0xFF : BitVec 8) ++ i.idxMask ++ i.immMask := by
  cases i <;> simp only [Instr.row, Instr.idxMask, Instr.immMask] <;> decide

theorem row_bits (i : Instr) : i.row.bits = i.op ++ (0 : BitVec 8) ++ (0 : BitVec 16) := by
  cases i <;> simp only [Instr.row, Instr.op] <;> decide

/-- A channel number is in range when the bits above the two lowest are 0. -/
theorem and_channelMask_eq_zero {x : BitVec 8} : x &&& 0xFC = 0 ↔ x.toNat < 4 := by
  revert x; decide

/-- A Clock number is in range when the bits above the lowest are 0. -/
theorem and_clockMask_eq_zero {x : BitVec 8} : x &&& 0xFE = 0 ↔ x.toNat < 2 := by
  revert x; decide

/-- A word belongs to the row of a command when it has its operation code and 0 where the row says 0. -/
theorem row_matches_iff {i : Instr} {w : CmdWord} :
    i.row.matches w = true ↔
      opField w = i.op ∧ idxField w &&& i.idxMask = 0 ∧ immField w &&& i.immMask = 0 := by
  have masked : w &&& i.row.mask =
      (opField w &&& 0xFF) ++ (idxField w &&& i.idxMask) ++ (immField w &&& i.immMask) := by
    rw [row_mask, ← BitVec.and_append, ← BitVec.and_append, fields_of_word]
  have opKept : opField w &&& 0xFF = opField w := BitVec.and_allOnes
  obtain ⟨mop, midx, mimm⟩ := Laws.EncodedFields.fields_append (opField w) (idxField w &&& i.idxMask)
    (immField w &&& i.immMask)
  obtain ⟨bop, bidx, bimm⟩ := Laws.EncodedFields.fields_append i.op 0 0
  rw [OpcodeRow.matches, beq_iff_eq, masked, opKept, row_bits, word_eq_iff, mop, midx, mimm, bop, bidx, bimm]

/-- A well-formed command has 0 where its row says 0. -/
theorem idx_and_idxMask {i : Instr} (h : i.wf = true) : i.idx &&& i.idxMask = 0 := by
  cases i with
  | oset ch v => exact and_channelMask_eq_zero.mpr (of_decide_eq_true h)
  | orev ch => exact and_channelMask_eq_zero.mpr (of_decide_eq_true h)
  | cfreq c f => exact and_clockMask_eq_zero.mpr (of_decide_eq_true h)
  | cauto c => exact and_clockMask_eq_zero.mpr (of_decide_eq_true h)
  | _ => exact BitVec.zero_and

theorem imm_and_immMask (i : Instr) : i.imm &&& i.immMask = 0 := by
  cases i with
  | oset | psel | cfreq | pfreq => exact BitVec.and_zero
  | _ => exact BitVec.zero_and

theorem row_matches_of_decode {w : CmdWord} {i : Instr} (h : decode w = .ok i) : i.row.matches w = true := by
  obtain ⟨hwf, rfl⟩ := decode_eq_ok_iff.mp h
  obtain ⟨hop, hidx, himm⟩ := fields_of_encode i
  rw [row_matches_iff, hop, hidx, himm]
  exact ⟨rfl, idx_and_idxMask hwf, imm_and_immMask i⟩

theorem decode_of_fields {w : CmdWord} {i : Instr} (hwf : i.wf = true) (hop : opField w = i.op)
    (hidx : idxField w = i.idx) (himm : immField w = i.imm) : decode w = .ok i := by
  rw [decode, hop, hidx, himm, decodeFields_of_wf hwf]

/-- The word's own fields are the operands of a command of the row it belongs to. -/
theorem decode_of_row_matches {i : Instr} {w : CmdWord} (h : i.row.matches w = true) :
    ∃ j, decode w = .ok j ∧ j.row = i.row := by
  obtain ⟨hop, hidx, himm⟩ := row_matches_iff.mp h
  have zeroIdx (whole : i.idxMask = BitVec.allOnes 8) : idxField w = 0 := by
    rwa [whole, BitVec.and_allOnes] at hidx
  have zeroImm (whole : i.immMask = BitVec.allOnes 16) : immField w = 0 := by
    rwa [whole, BitVec.and_allOnes] at himm
  cases i with
  | nop => exact ⟨.nop, decode_of_fields rfl hop (zeroIdx rfl) (zeroImm rfl), rfl⟩
  | oset =>
    have inBank := and_channelMask_eq_zero.mp hidx
    exact ⟨.oset (idxField w) (immField w), decode_of_fields (decide_eq_true inBank) hop rfl rfl, rfl⟩
  | orev =>
    have inBank := and_channelMask_eq_zero.mp hidx
    exact ⟨.orev (idxField w), decode_of_fields (decide_eq_true inBank) hop rfl (zeroImm rfl), rfl⟩
  | psel => exact ⟨.psel (immField w), decode_of_fields rfl hop (zeroIdx rfl) rfl, rfl⟩
  | cfreq =>
    have inBank := and_clockMask_eq_zero.mp hidx
    exact ⟨.cfreq (idxField w) (immField w), decode_of_fields (decide_eq_true inBank) hop rfl rfl, rfl⟩
  | pfreq => exact ⟨.pfreq (immField w), decode_of_fields rfl hop (zeroIdx rfl) rfl, rfl⟩
  | cauto =>
    have inBank := and_clockMask_eq_zero.mp hidx
    exact ⟨.cauto (idxField w), decode_of_fields (decide_eq_true inBank) hop rfl (zeroImm rfl), rfl⟩
  | csync => exact ⟨.csync, decode_of_fields rfl hop (zeroIdx rfl) (zeroImm rfl), rfl⟩
  | csynco => exact ⟨.csynco, decode_of_fields rfl hop (zeroIdx rfl) (zeroImm rfl), rfl⟩
  | pauto => exact ⟨.pauto, decode_of_fields rfl hop (zeroIdx rfl) (zeroImm rfl), rfl⟩
  | iack => exact ⟨.iack, decode_of_fields rfl hop (zeroIdx rfl) (zeroImm rfl), rfl⟩

theorem mem_opcodeMap {r : OpcodeRow} (h : r ∈ opcodeMap) : ∃ i : Instr, i.row = r := by
  obtain ⟨i, -, hi⟩ := List.mem_map.mp h
  exact ⟨i, hi⟩

/-- Settles O3: masks and decoder agree row by row, so two rows of one word hold the one command it decodes to. -/
theorem wordBelongsToItsRow : Obligations.WordBelongsToItsRow := by
  intro w r hr
  have agree {q : OpcodeRow} (hq : q ∈ opcodeMap) : q.matches w = true ↔ ∃ i, decode w = .ok i ∧ i.row = q := by
    obtain ⟨i, rfl⟩ := mem_opcodeMap hq
    refine ⟨decode_of_row_matches, ?_⟩
    rintro ⟨j, hj, sameRow⟩
    exact sameRow ▸ row_matches_of_decode hj
  refine ⟨agree hr, fun q hq rMatches qMatches => ?_⟩
  obtain ⟨i, hi, rfl⟩ := (agree hr).mp rMatches
  obtain ⟨j, hj, rfl⟩ := (agree hq).mp qMatches
  obtain rfl : i = j := Except.ok.inj (hi.symm.trans hj)
  rfl

/-! ### The reserved words (R49) -/

/-- R49's list, on the fields of a word. -/
def reservedFields (op idx : BitVec 8) (imm : BitVec 16) : Prop :=
  0x0B ≤ op.toNat ∨ ((op = 0x01 ∨ op = 0x02) ∧ 3 < idx.toNat) ∨ ((op = 0x04 ∨ op = 0x06) ∧ 1 < idx.toNat) ∨
    ((op = 0x00 ∨ op = 0x03 ∨ op = 0x05 ∨ op = 0x07 ∨ op = 0x08 ∨ op = 0x09 ∨ op = 0x0A) ∧ idx ≠ 0) ∨
    ((op = 0x00 ∨ op = 0x02 ∨ op = 0x06 ∨ op = 0x07 ∨ op = 0x08 ∨ op = 0x09 ∨ op = 0x0A) ∧ imm ≠ 0)

/-- The checks of each row refuse what the list says of its operation code. -/
theorem decodeFields_refuses_iff {op idx : BitVec 8} {imm : BitVec 16} :
    (∃ e, decodeFields op idx imm = .error e) ↔ reservedFields op idx imm := by
  unfold reservedFields
  rcases op_cases op with rfl | rfl | rfl | rfl | rfl | rfl | rfl | rfl | rfl | rfl | rfl | unknown
  · rw [decodeFields_nop, withZeroIdx_refuses, withZeroImm_refuses]; simp
  · rw [decodeFields_oset, withUnit_refuses]; simp [Nat.lt_iff_add_one_le]
  · rw [decodeFields_orev, withUnit_refuses, withZeroImm_refuses]; simp [Nat.lt_iff_add_one_le]
  · rw [decodeFields_psel, withZeroIdx_refuses]; simp
  · rw [decodeFields_cfreq, withUnit_refuses]; simp [Nat.lt_iff_add_one_le]
  · rw [decodeFields_pfreq, withZeroIdx_refuses]; simp
  · rw [decodeFields_cauto, withUnit_refuses, withZeroImm_refuses]; simp [Nat.lt_iff_add_one_le]
  · rw [decodeFields_csync, withZeroIdx_refuses, withZeroImm_refuses]; simp
  · rw [decodeFields_csynco, withZeroIdx_refuses, withZeroImm_refuses]; simp
  · rw [decodeFields_pauto, withZeroIdx_refuses, withZeroImm_refuses]; simp
  · rw [decodeFields_iack, withZeroIdx_refuses, withZeroImm_refuses]; simp
  · simp [decodeFields_unknown idx imm unknown, unknown]

/-- A presented word that does not decode is refused (R64). -/
theorem Machine.State.takeCommand_of_error {s : Machine.State} {e : DecodeError} (hv : s.ports.cmdValid = true)
    (h : decode s.ports.cmd = .error e) : s.takeCommand = .next s.refuse := by
  rw [Machine.State.takeCommand, if_pos hv, h]

/-- Settles O4: the decoder's refusals are R49's list, and a refusal is a write of `cmd_ok` alone. -/
theorem reservedWordsAreRefused : Obligations.ReservedWordsAreRefused := by
  intro w
  refine ⟨decodeFields_refuses_iff, ?_⟩
  rintro s hv rfl ⟨e, he⟩
  exact Machine.State.takeCommand_of_error hv he

end Sys2Proof

/-! PROOFS. The 40-bit word of a Program entry, the operand `X.Y`, and the table that `PROG` lines declare (R50,
R54). -/

namespace Sys2Proof.Machine

/-! ### The 40-bit word of an entry (R50) -/

/-- A word unpacks to the entry that its three fields make, and only a length in range makes one (R123). -/
theorem unpackEntry_eq_some {w : BitVec 40} {P : ProgEntry} :
    unpackEntry w = some P ↔
      w.extractLsb' 32 8 = P.len ∧ w.extractLsb' 16 16 = P.seq0 ∧ w.extractLsb' 0 16 = P.seq1 := by
  unfold unpackEntry
  split
  next => cases P; simp only [Option.some_inj, ProgEntry.mk.injEq]
  next outOfRange =>
    refine ⟨nofun, fun ⟨sameLen, _, _⟩ => ?_⟩
    rw [sameLen] at outOfRange
    exact absurd ⟨P.len_pos, P.len_le⟩ outOfRange

theorem unpackEntry_eq_none {w : BitVec 40} :
    unpackEntry w = none ↔ (w.extractLsb' 32 8).toNat = 0 ∨ 16 < (w.extractLsb' 32 8).toNat := by
  unfold unpackEntry
  split
  next inRange => simp only [reduceCtorEq, false_iff]; omega
  next outOfRange => simp only [true_iff]; omega

theorem unpackEntry_packEntry (P : ProgEntry) : unpackEntry (packEntry P) = some P :=
  unpackEntry_eq_some.mpr
    ⟨extract_high_append P.len P.seq0 P.seq1, extract_mid_append P.len P.seq0 P.seq1,
      extract_low_append P.len P.seq0 P.seq1⟩

theorem packEntry_of_unpackEntry {w : BitVec 40} {P : ProgEntry} (h : unpackEntry w = some P) :
    packEntry P = w := by
  obtain ⟨hlen, hseq0, hseq1⟩ := unpackEntry_eq_some.mp h
  rw [packEntry, ← hlen, ← hseq0, ← hseq1]
  exact append_extracted_fields (n := 8) (m := 16) (k := 16) w

/-- Settles O6: entry and word are each made of the other's three fields. -/
theorem entryPackingRoundTrips : Obligations.EntryPackingRoundTrips :=
  ⟨unpackEntry_packEntry, fun _ _ => packEntry_of_unpackEntry, fun _ => unpackEntry_eq_none⟩

/-! ### A frequency in Hz (R54 (a)) -/

theorem digitOf_point : digitOf 10 '.' = none := by decide

/-- Every character of a digit string is a digit. -/
theorem digitOf_isSome_of_digitsFrom {base : Nat} {cs : List Char} {acc n : Nat}
    (h : digitsFrom base acc cs = some n) :
    ∀ c ∈ cs, (digitOf base c).isSome = true := by
  induction cs generalizing acc with
  | nil => simp
  | cons c cs ih =>
    rw [digitsFrom] at h
    split at h
    next d hd => exact List.forall_mem_cons.mpr ⟨by rw [hd]; rfl, ih h⟩
    next => cases h

/-- No decimal numeral holds a point. -/
theorem no_point_of_digits {cs : List Char} {n : Nat} (h : digits 10 cs = some n) :
    ∀ c ∈ cs, (c != '.') = true := by
  unfold digits at h
  split at h
  next => cases h
  next =>
    intro c hc
    have isDigit := digitOf_isSome_of_digitsFrom h c hc
    refine bne_iff_ne.mpr fun isPoint => ?_
    rw [isPoint, digitOf_point] at isDigit
    cases isDigit

theorem oneDigit_eq_some {cs : List Char} {d : Nat} :
    oneDigit cs = some d ↔ ∃ y, cs = [y] ∧ digitOf 10 y = some d := by
  unfold oneDigit
  split
  next y => simp
  next notOne =>
    refine ⟨nofun, ?_⟩
    rintro ⟨y, rfl, -⟩
    exact absurd rfl (notOne y)

/-- Where something stands after the first point, the text is what stands before it, the point, and that. -/
theorem split_at_point {cs : List Char} {y : Char} (h : (cs.dropWhile (· != '.')).tail = [y]) :
    cs = cs.takeWhile (· != '.') ++ ['.', y] := by
  have stops := List.head?_dropWhile_not (· != '.') cs
  cases rest : cs.dropWhile (· != '.') with
  | nil => rw [rest] at h; cases h
  | cons p ps =>
    rw [rest] at h stops
    obtain rfl : p = '.' := by simpa using stops
    obtain rfl : ps = [y] := h
    rw [← rest, List.takeWhile_append_dropWhile]

/-- A text whose first point stands between `xs` and `y` is cut there. -/
theorem cut_at_point {xs : List Char} (y : Char) (h : ∀ c ∈ xs, (c != '.') = true) :
    (xs ++ ['.', y]).takeWhile (· != '.') = xs ∧ ((xs ++ ['.', y]).dropWhile (· != '.')).tail = [y] := by
  rw [List.takeWhile_append_of_pos h, List.dropWhile_append_of_pos h]
  simp

theorem asmHz_eq_some {cs : List Char} {f : BitVec 16} :
    asmHz cs = some f ↔
      ∃ x d, digits 10 (cs.takeWhile (· != '.')) = some x ∧ oneDigit (cs.dropWhile (· != '.')).tail = some d ∧
        10 * x + d < 65536 ∧ f = BitVec.ofNat 16 (10 * x + d) := by
  unfold asmHz
  split
  next x d hx hd => simp [hx, hd, eq_comm]
  next unread =>
    refine ⟨nofun, ?_⟩
    rintro ⟨x, d, hx, hd, -⟩
    exact (unread x d hx hd).elim

/-- Settles O58: the first point cuts the text, since a numeral holds none. -/
theorem hzOperandsHaveOneDecimalDigit : Obligations.HzOperandsHaveOneDecimalDigit := by
  intro cs f
  rw [asmHz_eq_some]
  constructor
  · rintro ⟨x, d, hx, hd, inRange, value⟩
    obtain ⟨y, tail, hy⟩ := oneDigit_eq_some.mp hd
    exact ⟨_, y, x, d, split_at_point tail, hx, hy, inRange, value⟩
  · rintro ⟨xs, y, x, d, rfl, hx, hy, inRange, value⟩
    obtain ⟨before, after⟩ := cut_at_point y (no_point_of_digits hx)
    exact ⟨x, d, before.symm ▸ hx, oneDigit_eq_some.mpr ⟨y, after, hy⟩, inRange, value⟩

/-! ### The Program table of a text (R54 (b)) -/

/-- A configuration with a table has that table, and its other parameters are the old ones (R38). -/
theorem configWithTable_eq_some {c d : Config} {table : List ProgEntry} (h : configWithTable c table = some d) :
    progTable d = table ∧
      ∃ fits, d = { c with sentinel := d.sentinel, programs := d.programs, table_le := fits } := by
  unfold configWithTable at h
  split at h
  next => cases h
  next P ps =>
    split at h
    next fits => cases h; exact ⟨rfl, fits, rfl⟩
    next => cases h

theorem configWithTable_eq_none {c : Config} {table : List ProgEntry} :
    configWithTable c table = none ↔ table = [] ∨ c.maxPrograms < table.length := by
  cases table with
  | nil => simp [configWithTable]
  | cons P ps => simp [configWithTable]

theorem assembledTable_append_entry (lines : List AsmLine) (P : ProgEntry) (more : List AsmLine) :
    assembledTable (lines ++ .entry P :: more) = assembledTable lines ++ P :: assembledTable more := by
  rw [assembledTable, List.filterMap_append, List.filterMap_cons]
  rfl

/-- Settles O57: `ProgRead` and `prog_count` read the table, which is the assembled one. -/
theorem entryDirectivesFillTheTable : Obligations.EntryDirectivesFillTheTable := by
  intro c lines
  refine ⟨fun d hd => ?_, configWithTable_eq_none, assembledTable_append_entry lines⟩
  obtain ⟨table, others⟩ := configWithTable_eq_some hd
  exact ⟨fun n => by rw [progRead, table], by rw [progCount, table], others⟩

end Sys2Proof.Machine

/-! SUPPORT. A pass by its parts: the command that the port presents, and the updates, which read neither the
command port nor `cmd_ok` (R60, R61). -/

namespace Sys2Proof.Machine

section
variable {s : State}

/-! ### The command part of a pass (R61) -/

theorem State.takeCommand_of_decode {i : Instr} (hv : s.ports.cmdValid = true) (hd : decode s.ports.cmd = .ok i) :
    s.takeCommand = exec i s := by
  rw [State.takeCommand, if_pos hv, hd]

theorem State.takeCommand_of_no_command (hv : s.ports.cmdValid = false) : s.takeCommand = .next s := by
  rw [State.takeCommand, hv]; rfl

/-! ### The refused commands (R64, R121) -/

theorem execPsel_of_no_entry {n : BitVec 16} (h : progRead s.cfg n.toNat = none) :
    execPsel n s = .next s.refuse := by
  rw [execPsel, h]

/-- A frequency of 0 is refused for every Clock, existing or not. -/
theorem execCfreq_zero (c : BitVec 8) : execCfreq c 0 s = .next s.refuse := by
  unfold execCfreq
  split
  next => rw [if_pos rfl]
  next => rfl

theorem execPfreq_zero : execPfreq 0 s = .next s.refuse := if_pos rfl

/-- R121's complete list of causes: a reserved word, a Program index out of range, a frequency of 0. -/
theorem refusedCommand_cases (h : refusedCommand s = true) :
    (∃ e, decode s.ports.cmd = .error e) ∨
      (∃ n, decode s.ports.cmd = .ok (.psel n) ∧ progRead s.cfg n.toNat = none) ∨
      (∃ c, decode s.ports.cmd = .ok (.cfreq c 0)) ∨ decode s.ports.cmd = .ok (.pfreq 0) := by
  unfold refusedCommand at h
  split at h
  next e he => exact .inl ⟨e, he⟩
  next n hn => exact .inr (.inl ⟨n, hn, Option.isNone_iff_eq_none.mp h⟩)
  next c f hd =>
    obtain rfl := beq_iff_eq.mp h
    exact .inr (.inr (.inl ⟨c, hd⟩))
  next f hd =>
    obtain rfl := beq_iff_eq.mp h
    exact .inr (.inr (.inr hd))
  all_goals cases h

/-- A refused command writes `cmd_ok` alone, whatever the cause (R64). -/
theorem State.takeCommand_of_refusedCommand (hv : s.ports.cmdValid = true) (h : refusedCommand s = true) :
    s.takeCommand = .next s.refuse := by
  rcases refusedCommand_cases h with ⟨e, he⟩ | ⟨n, hd, noEntry⟩ | ⟨c, hd⟩ | hd
  · exact State.takeCommand_of_error hv he
  · exact (State.takeCommand_of_decode hv hd).trans (execPsel_of_no_entry noEntry)
  · exact (State.takeCommand_of_decode hv hd).trans (execCfreq_zero c)
  · exact (State.takeCommand_of_decode hv hd).trans execPfreq_zero

/-! ### What the updates do not read -/

/-- The updates read the tick and the pins of the port, not the command, and they do not read `cmd_ok`. -/
theorem State.updates_of_same_pins {p : InPorts} (b : Bool) (tick : p.tick = s.ports.tick)
    (btnIn : p.btnIn = s.ports.btnIn) (inData : p.inData = s.ports.inData) :
    ({ s with cmdOk := b, ports := p } : State).updates = { s.updates with cmdOk := b, ports := p } := by
  have buttons : ({ s with cmdOk := b, ports := p } : State).afterButtons =
      { s.afterButtons with cmdOk := b, ports := p } := by
    simp only [State.afterButtons_eq, tick, btnIn]
  have lines := State.updateLines_congr (s := s.afterButtons)
    (u := { s.afterButtons with cmdOk := b, ports := p }) rfl rfl rfl rfl tick
  obtain ⟨c, q, framed⟩ := s.afterButtons.updateLines_frame
  obtain ⟨c', q', framed'⟩ := ({ s.afterButtons with cmdOk := b, ports := p } : State).updateLines_frame
  rw [framed, framed'] at lines
  obtain ⟨sameClk, sameSeq⟩ : c' = c ∧ q' = q := lines
  rw [State.updates_eq, State.updates_eq, buttons, framed, framed', sameClk, sameSeq, tick, inData]

theorem State.updates_nextEdge_setCmdOk (s : State) (b : Bool) :
    (s.setCmdOk b).updates.nextEdge = s.updates.nextEdge.setCmdOk b := by
  have updated : (s.setCmdOk b).updates = s.updates.setCmdOk b :=
    (State.updates_of_same_pins (p := s.ports) b rfl rfl rfl).trans (by rw [← s.updates_ports]; rfl)
  rw [updated]
  unfold State.nextEdge
  rw [State.setCmdOk_upcoming]
  cases s.updates.upcoming <;> rfl

/-- What the command port holds makes no difference to the updates and the inputs after them. -/
theorem State.updates_nextEdge_of_same_pins {p : InPorts} (tick : p.tick = s.ports.tick)
    (btnIn : p.btnIn = s.ports.btnIn) (inData : p.inData = s.ports.inData) :
    ({ s with ports := p } : State).updates.nextEdge = s.updates.nextEdge := by
  have updated : ({ s with ports := p } : State).updates = { s.updates with ports := p } :=
    (State.updates_of_same_pins s.cmdOk tick btnIn inData).trans (by rw [← s.updates_cmdOk])
  rw [updated, State.nextEdge_congr_ports]

/-! ### Passes of a legal state -/

theorem step_of_next {t : State} (hr : s.ports.rst = false) (hl : s.legal = true) (h : s.takeCommand = .next t) :
    step s = .next t.updates.nextEdge :=
  (step_of_legal hr hl).trans (runPass_of_next h)

theorem step_of_no_command (hr : s.ports.rst = false) (hv : s.ports.cmdValid = false) (hl : s.legal = true) :
    step s = .next s.updates.nextEdge :=
  step_of_next hr hl (State.takeCommand_of_no_command hv)

/-- A pass without a command, whatever word stands on the port and whatever the port of `s` presents (R61). -/
theorem step_with_idle_port {p : InPorts} (hr : p.rst = false) (hv : p.cmdValid = false) (hl : s.legal = true)
    (tick : p.tick = s.ports.tick) (btnIn : p.btnIn = s.ports.btnIn) (inData : p.inData = s.ports.inData) :
    step { s with ports := p } = .next s.updates.nextEdge :=
  (step_of_no_command (s := { s with ports := p }) hr hv hl).trans
    (congrArg _ (State.updates_nextEdge_of_same_pins tick btnIn inData))

/-- A command that writes `cmd_ok` alone leaves the pass what it is without a command, but for `cmd_ok`. -/
theorem step_of_setCmdOk {b : Bool} (hr : s.ports.rst = false) (hl : s.legal = true)
    (h : s.takeCommand = .next (s.setCmdOk b)) :
    ∃ t, step { s with ports := { s.ports with cmdValid := false } } = .next t ∧
      step s = .next { t with cmdOk := b } := by
  have without : step { s with ports := { s.ports with cmdValid := false } } = .next s.updates.nextEdge :=
    step_with_idle_port (s := s) hr rfl hl rfl rfl rfl
  have withCommand : step s = .next (s.updates.nextEdge.setCmdOk b) :=
    (step_of_next hr hl h).trans (congrArg _ (s.updates_nextEdge_setCmdOk b))
  exact ⟨_, without, withCommand⟩

end

end Sys2Proof.Machine

/-! PROOFS. The pass and its command (R60 to R62, R64). -/

namespace Sys2Proof.Machine

/-- Settles O7: a pass runs what the port presents, and that is `exec` of the decoded command. -/
theorem stepRunsTheDecodedCommand : Obligations.StepRunsTheDecodedCommand := by
  intro s i hr hv hl hd
  rw [← State.takeCommand_of_decode hv hd]
  exact step_of_legal hr hl

/-- Settles O8: without a command the updates run from the state as it stands, and they read no command word. -/
theorem passWithoutCommandRunsUpdatesOnly : Obligations.PassWithoutCommandRunsUpdatesOnly := by
  intro s w hr hv hl
  have updatesOnly := step_of_no_command hr hv hl
  have cmdOk_kept : s.updates.nextEdge.cmdOk = s.cmdOk := by rw [State.nextEdge_cmdOk, State.updates_cmdOk]
  have otherWord : step { s with ports := { s.ports with cmd := w } } = .next s.updates.nextEdge :=
    step_with_idle_port (s := s) hr hv hl rfl rfl rfl
  exact ⟨updatesOnly, cmdOk_kept, otherWord.trans updatesOnly.symm⟩

/-- Settles O9: every cause of a refusal leaves the command part at `State.refuse`. -/
theorem refusedCommandActsAsNoCommand : Obligations.RefusedCommandActsAsNoCommand := by
  intro s hr hv hl refused
  exact step_of_setCmdOk hr hl (State.takeCommand_of_refusedCommand hv refused)

/-- Settles O13: NOP's command part is `State.accept`. -/
theorem nopSetsCmdOkOnly : Obligations.NopSetsCmdOkOnly := by
  intro s
  have decodes : decode 0x00000000 = .ok .nop := by decide
  refine ⟨decodes, rfl, fun hr hv hl hw => step_of_setCmdOk hr hl ?_⟩
  exact State.takeCommand_of_decode hv (hw ▸ decodes)

end Sys2Proof.Machine

/-! PROOFS. Legality alone, without the rest of the invariant, is kept by every machine's update and by every
command, and it is what makes a command answer (I11, R66). -/

namespace Sys2Proof.Machine

/-! ### The machines -/

/-- A slot is started only while one is left, and the flush slot follows the last one (R85). -/
theorem outputAction_legal {o : OutputChannel} (ho : outputLegal o = true) : outputLegal (outputAction o) = true := by
  obtain ⟨hbit, slotLeft⟩ := outputLegal_iff.mp ho
  cases hst : o.st <;> simp only [outputAction, hst]
  case idle => exact ho
  case pause =>
    cases hlast : o.last with
    | true => exact outputLegal_iff.mpr ⟨hbit, nofun⟩
    | false => exact outputLegal_iff.mpr ⟨(count_toNat (slotLeft hst hlast)).trans_le (slotLeft hst hlast), nofun⟩
  case dataSet => exact outputLegal_iff.mpr ⟨hbit, nofun⟩
  case enableSet =>
    split_ifs with more flushed
    · exact outputLegal_iff.mpr ⟨hbit, fun _ _ => more⟩
    · exact outputLegal_iff.mpr ⟨hbit, nofun⟩
    · exact outputLegal_iff.mpr ⟨hbit, nofun⟩

theorem outputUpdate_legal {o : OutputChannel} (ho : outputLegal o = true) (v : BitVec 32) (now : Tick) :
    outputLegal (outputUpdate v now o) = true := by
  unfold outputUpdate
  split_ifs
  · exact ho
  · exact outputAction_legal ho
  · exact ho

/-- The sixteenth sample ends the count (R95 (f)). -/
theorem inputSample_legal {i : InputChannel} (hi : inputLegal i = true) (pin : Bool) :
    inputLegal (inputSample pin i) = true := by
  have below := inputLegal_iff.mp hi
  unfold inputSample
  split_ifs with last
  · rfl
  · have count : i.bitCount.toNat < 15 := by bv_omega
    exact inputLegal_iff.mpr ((count_toNat below).trans_lt (by omega))

theorem inputAction_legal {i : InputChannel} (hi : inputLegal i = true) (pin : Bool) :
    inputLegal (inputAction pin i) = true := by
  cases hst : i.st <;> simp only [inputAction, hst]
  case serialShiftOff => exact inputSample_legal hi pin
  all_goals exact hi

theorem inputUpdate_legal {i : InputChannel} (hi : inputLegal i = true) (v : BitVec 32) (now : Tick) (pin : Bool) :
    inputLegal (inputUpdate v now pin i) = true := by
  unfold inputUpdate
  split
  · exact inputAction_legal hi pin
  · exact hi

/-- `r` stands under the Program of `q`, where `q` stands or one step of `P` further (R108, R109). -/
def ProgramControl.StaysOrSteps (q : ProgramControl) (P : ProgEntry) (r : ProgramControl) : Prop :=
  r.curProg = q.curProg ∧ (r.step = q.step ∨ r.step = nextStep q.step P)

theorem State.seqManual_staysOrSteps (s : State) (P : ProgEntry) : s.seq.StaysOrSteps P (s.seqManual P).seq := by
  rw [State.seqManual_eq]
  exact ⟨rfl, (ite_eq_or_eq (risingEdge s.btn.u1 = true) (nextStep s.seq.step P) s.seq.step).symm⟩

theorem State.seqTimed_staysOrSteps (s : State) (P : ProgEntry) : s.seq.StaysOrSteps P (s.seqTimed P).seq := by
  by_cases due : s.seq.nextTick < s.ports.tick
  · rw [State.seqTimed_steps due]
    exact ⟨rfl, .inr rfl⟩
  · rw [State.seqTimed_waits due]
    exact ⟨rfl, .inl rfl⟩

theorem State.seqUpdate_staysOrSteps (s : State) (P : ProgEntry) : s.seq.StaysOrSteps P (s.seqUpdate P).seq := by
  unfold State.seqUpdate
  split
  · exact s.seqManual_staysOrSteps P
  · exact s.seqTimed_staysOrSteps P
  · exact s.seqTimed_staysOrSteps P

/-- The next step is inside the Program, since it is taken modulo its length. -/
theorem seqLegal_of_staysOrSteps {c : Config} {q r : ProgramControl} {P : ProgEntry} (hq : seqLegal c q = true)
    (hP : progRead c q.curProg.toNat = some P) (h : q.StaysOrSteps P r) : seqLegal c r = true := by
  obtain ⟨sameProg, stays | steps⟩ := h
  · obtain ⟨Q, hQ, inside⟩ := seqLegal_iff.mp hq
    exact seqLegal_iff.mpr ⟨Q, sameProg ▸ hQ, stays ▸ inside⟩
  · exact seqLegal_iff.mpr ⟨P, sameProg ▸ hP, steps ▸ nextStep_lt q.step P⟩

theorem State.updateLines_seqLegal {s : State} (hs : seqLegal s.cfg s.seq = true) :
    seqLegal s.cfg s.updateLines.seq = true := by
  unfold State.updateLines
  split
  · exact hs
  · split
    next P hP => exact seqLegal_of_staysOrSteps hs hP (s.seqUpdate_staysOrSteps P)
    next => exact hs

/-! ### Register writes, and the states a pass goes through -/

section
variable {s : State}

theorem State.Inv.legal (hs : s.Inv) : s.legal = true :=
  State.legal_iff.mpr ⟨fun ch => (hs.out ch).legal, hs.inp.legal, hs.seq.legal⟩

theorem State.setOut_legal (hs : s.legal = true) (ch : Fin 4) {o : OutputChannel} (ho : outputLegal o = true) :
    (s.setOut ch o).legal = true := by
  obtain ⟨out, inp, seq⟩ := State.legal_iff.mp hs
  exact State.legal_iff.mpr ⟨Four.forall_get_set (p := fun o => outputLegal o = true) out ch ho, inp, seq⟩

theorem State.setSeq_legal (hs : s.legal = true) {q : ProgramControl} (hq : seqLegal s.cfg q = true) :
    (s.setSeq q).legal = true := by
  obtain ⟨out, inp, -⟩ := State.legal_iff.mp hs
  exact State.legal_iff.mpr ⟨out, inp, hq⟩

theorem State.syncClocks_legal (hs : s.legal = true) (deadline : Tick) : (s.syncClocks deadline).legal = true := by
  unfold State.syncClocks
  split <;> exact hs

theorem State.updates_legal (hs : s.legal = true) : s.updates.legal = true := by
  obtain ⟨out, inp, seq⟩ := State.legal_iff.mp hs
  refine State.legal_iff.mpr ⟨fun ch => ?outputs, ?input, ?sequencer⟩
  case outputs => rw [State.updates_out]; exact outputUpdate_legal (out ch) _ _
  case input => rw [State.updates_inp]; exact inputUpdate_legal inp _ _ _
  case sequencer =>
    rw [State.updates_cfg, State.updates_seq]
    exact State.updateLines_seqLegal (s := s.afterButtons) seq

theorem State.nextEdge_legal (hs : s.legal = true) : s.nextEdge.legal = true := by
  unfold State.nextEdge
  split <;> exact hs

/-! ### Commands -/

/-- In a legal state there is an active Program (R16, R31). -/
theorem State.activeProgram_of_legal (hs : s.legal = true) : ∃ P, s.activeProgram = some P := by
  obtain ⟨-, -, seq⟩ := State.legal_iff.mp hs
  obtain ⟨P, hP, -⟩ := seqLegal_iff.mp seq
  exact ⟨P, hP⟩

theorem execOset_answers_legal (hs : s.legal = true) (ch : BitVec 8) (v : BitVec 16) :
    ∃ t, execOset ch v s = .next t ∧ t.legal = true := by
  refine ⟨_, rfl, ?_⟩
  split
  next k _ => exact State.setOut_legal (s := s.accept) hs k rfl
  next => exact hs

theorem execOrev_answers_legal (hs : s.legal = true) (ch : BitVec 8) :
    ∃ t, execOrev ch s = .next t ∧ t.legal = true := by
  refine ⟨_, rfl, ?_⟩
  split
  next k _ => exact State.setOut_legal (s := s.accept) hs k rfl
  next => exact hs

/-- A selected Program is entered at step 0, below every length (R110). -/
theorem execPsel_answers_legal (hs : s.legal = true) (n : BitVec 16) :
    ∃ t, execPsel n s = .next t ∧ t.legal = true := by
  refine ⟨_, rfl, ?_⟩
  split
  next P hP =>
    refine State.setSeq_legal (s := s.accept) hs (seqLegal_iff.mpr ⟨P, ?_, P.len_pos⟩)
    exact (congrArg _ (setWidth_toNat_of_progRead hP)).trans hP
  next => exact hs

theorem execCfreq_answers_legal (hs : s.legal = true) (c : BitVec 8) (f : BitVec 16) :
    ∃ t, execCfreq c f s = .next t ∧ t.legal = true := by
  refine ⟨_, rfl, ?_⟩
  split
  next => split <;> exact hs
  next => exact hs

/-- PFREQ answers because there is an active Program (R111). -/
theorem execPfreq_answers_legal (hs : s.legal = true) (f : BitVec 16) :
    ∃ t, execPfreq f s = .next t ∧ t.legal = true := by
  obtain ⟨P, hP⟩ := State.activeProgram_of_legal hs
  unfold execPfreq
  split
  next => exact ⟨_, rfl, hs⟩
  next => rw [hP]; exact ⟨_, rfl, hs⟩

theorem execCauto_answers_legal (hs : s.legal = true) (c : BitVec 8) :
    ∃ t, execCauto c s = .next t ∧ t.legal = true := by
  refine ⟨_, rfl, ?_⟩
  split <;> exact hs

theorem exec_answers_legal (hs : s.legal = true) (i : Instr) : ∃ t, exec i s = .next t ∧ t.legal = true := by
  cases i with
  | nop => exact ⟨_, rfl, hs⟩
  | oset ch v => exact execOset_answers_legal hs ch v
  | orev ch => exact execOrev_answers_legal hs ch
  | psel n => exact execPsel_answers_legal hs n
  | cfreq c f => exact execCfreq_answers_legal hs c f
  | pfreq f => exact execPfreq_answers_legal hs f
  | cauto c => exact execCauto_answers_legal hs c
  | csync => exact ⟨_, rfl, State.syncClocks_legal (s := s.accept) hs _⟩
  | csynco => exact ⟨_, rfl, State.syncClocks_legal (s := s.accept) hs _⟩
  | pauto => exact ⟨_, rfl, hs⟩
  | iack => exact ⟨_, rfl, hs⟩

theorem State.takeCommand_answers_legal (hs : s.legal = true) : ∃ t, s.takeCommand = .next t ∧ t.legal = true := by
  cases hv : s.ports.cmdValid with
  | false => exact ⟨s, State.takeCommand_of_no_command hv, hs⟩
  | true =>
    cases hd : decode s.ports.cmd with
    | error e => exact ⟨s.refuse, State.takeCommand_of_error hv hd, hs⟩
    | ok i =>
      obtain ⟨t, answers, legal⟩ := exec_answers_legal hs i
      exact ⟨t, (State.takeCommand_of_decode hv hd).trans answers, legal⟩

end

/-- Settles O50: a reset pass leaves the reset values; from a legal state the command answers, and the updates
follow it. -/
theorem legalStatesAlwaysStep : Obligations.LegalStatesAlwaysStep := by
  intro s h
  cases hr : s.ports.rst with
  | true =>
    have reset := State.afterReset_inv s.cfg s.now s.ports s.upcoming s.envIndex
    exact ⟨_, step_of_rst hr, reset.nextEdge.legal⟩
  | false =>
    have hs : s.legal = true := h.resolve_left (by simp [hr])
    obtain ⟨t, taken, legal⟩ := State.takeCommand_answers_legal hs
    exact ⟨_, step_of_next hr hs taken, State.nextEdge_legal (State.updates_legal legal)⟩

end Sys2Proof.Machine

/-! SUPPORT. The Buttons in a pass and in a run: no command writes a Button, so a pass without reset leaves each
Button at its own update; the debounce register, bit by bit (R70, R73). -/

namespace Sys2Proof.Machine

section
variable {s t : State}

/-! ### Passes and runs -/

/-- The command part of a pass, be it a command, a refusal or nothing, keeps the frame of a command (R61, R64). -/
theorem State.CommandFrame.takeCommand (h : s.takeCommand = .next t) : s.CommandFrame t := by
  cases hv : s.ports.cmdValid with
  | false =>
    cases (State.takeCommand_of_no_command hv).symm.trans h
    constructor <;> intros <;> rfl
  | true =>
    cases hd : decode s.ports.cmd with
    | error e =>
      cases (State.takeCommand_of_error hv hd).symm.trans h
      exact refuse s
    | ok i => exact exec ((State.takeCommand_of_decode hv hd).symm.trans h)

/-- Each Button after a pass without reset, whatever the command (R22, R60, R70). -/
theorem step_btn (hr : s.ports.rst = false) (h : step s = .next t) (i : Fin 2) :
    Two.get t.btn i =
      buttonUpdate s.cfg.buttonUpdateInterval s.ports.tick (Two.get s.ports.btnIn i) (Two.get s.btn i) := by
  rcases step_cases h with ⟨reset, -⟩ | ⟨-, -, u, taken, rfl⟩
  · rw [hr] at reset; cases reset
  · have frame := State.CommandFrame.takeCommand taken
    rw [State.nextEdge_btn, State.updates_btn, frame.cfg, frame.ports, frame.btn]

/-- A legal state answers inputs without reset in a legal state, with each Button updated from its pin. -/
theorem passOn_answers_btn {p : InPorts} (hs : s.legal = true) (hr : p.rst = false) (i : Fin 2) :
    ∃ t, passOn p s = .next t ∧ t.legal = true ∧
      Two.get t.btn i = buttonUpdate s.cfg.buttonUpdateInterval p.tick (Two.get p.btnIn i) (Two.get s.btn i) := by
  obtain ⟨t, answers, legal⟩ := legalStatesAlwaysStep { s with ports := p } (.inr hs)
  exact ⟨t, answers, legal, step_btn (s := { s with ports := p }) hr answers i⟩

theorem traceOn_cons_of_next {p : InPorts} {ps : List InPorts} (h : passOn p s = .next t) :
    traceOn (p :: ps) s = t :: traceOn ps t := by
  rw [traceOn, h]

theorem samplesTaken_cons_of_next {i : Fin 2} {p : InPorts} {ps : List InPorts} (h : passOn p s = .next t) :
    samplesTaken i (p :: ps) s =
      (if deadlinePassed p.tick (Two.get s.btn i).nextTick then 1 else 0) + samplesTaken i ps t := by
  rw [samplesTaken, h]

end

/-! ### The debounce register -/

theorem shiftSample_bit (reg : BitVec 8) (pin : Bool) {k : Nat} (hk : k < 8) :
    (shiftSample reg pin).getLsbD k = if k = 0 then pin else reg.getLsbD (k - 1) := by
  unfold shiftSample
  rw [BitVec.getLsbD_append]
  cases k with
  | zero => simp
  | succ k => simp [show k < 7 by omega]

/-- The sample comes in at bit 0 of the register shifted left (R70 (d)). -/
theorem shiftSample_eq_shift_or (reg : BitVec 8) (pin : Bool) :
    shiftSample reg pin = (reg <<< 1) ||| (BitVec.ofBool pin).setWidth 8 := by
  apply BitVec.eq_of_getLsbD_eq
  intro k hk
  rw [shiftSample_bit _ _ hk, BitVec.getLsbD_or, BitVec.getLsbD_shiftLeft, BitVec.getLsbD_setWidth]
  by_cases newest : k = 0
  · simp [newest]
  · simp [newest, hk, BitVec.getLsbD_ofBool]

/-- The newest `k` samples of the register were high. -/
def newestHigh (k : Nat) (reg : BitVec 8) : Prop := ∀ j < k, reg.getLsbD j = true

theorem newestHigh_shiftSample {k : Nat} {reg : BitVec 8} (h : newestHigh k reg) (hk : k < 8) :
    newestHigh (k + 1) (shiftSample reg true) := by
  intro j hj
  rw [shiftSample_bit _ _ (by omega)]
  by_cases newest : j = 0
  · rw [if_pos newest]
  · rw [if_neg newest]; exact h (j - 1) (by omega)

theorem eq_ones_of_newestHigh {reg : BitVec 8} (h : newestHigh 8 reg) : reg = 0xFF := by
  apply BitVec.eq_of_getLsbD_eq
  intro k hk
  rw [h k hk, show (0xFF : BitVec 8) = BitVec.allOnes 8 from rfl, BitVec.getLsbD_allOnes]
  simp [hk]

theorem shiftSample_true_ne_zero (reg : BitVec 8) : shiftSample reg true ≠ 0x00 := by
  intro zero
  have newest := shiftSample_bit reg true (k := 0) (by omega)
  simp [zero] at newest

theorem shiftSample_ones : shiftSample 0xFF true = 0xFF := by decide

end Sys2Proof.Machine

/-! PROOFS. The Buttons (R70, R73). -/

namespace Sys2Proof.Machine

/-- Settles O26: the Button after the pass is BTN.UPDATE's, one of two cases by the deadline. -/
theorem buttonSamplesAndFlips : Obligations.ButtonSamplesAndFlips := by
  intro s t i hr h
  rw [step_btn hr h i]
  refine ⟨fun waits => buttonUpdate_waits waits, fun due => ?_⟩
  rw [buttonUpdate_samples due]
  exact ⟨rfl, shiftSample_eq_shift_or _ _, rfl, rfl⟩

/-! ### A pin held high (R73) -/

/-- A released Button whose newest `k` samples were high, too few to flip it. -/
structure Button.Rising (k : Nat) (b : Button) : Prop where
  released : b.state = false
  few : k < 8
  high : newestHigh k b.reg

/-- A Button that is pressed, with a register of all ones. -/
structure Button.Down (b : Button) : Prop where
  pressed : b.state = true
  ones : b.reg = 0xFF

section
variable {v : BitVec 32} {now : Tick} {b : Button}

/-- A high sample into a register of all ones changes nothing. -/
theorem Button.Down.update_high (hb : b.Down) :
    (buttonUpdate v now true b).Down ∧ (buttonUpdate v now true b).stateChanged = false := by
  by_cases due : b.nextTick < now
  · have ones : shiftSample b.reg true = 0xFF := by rw [hb.ones, shiftSample_ones]
    rw [buttonUpdate_samples due, ones, debounced_ones b.state rfl, hb.pressed]
    exact ⟨⟨rfl, rfl⟩, rfl⟩
  · rw [buttonUpdate_waits due]
    exact ⟨⟨hb.pressed, hb.ones⟩, rfl⟩

/-- One more high sample either fills the register, and the Button flips, or leaves it with one more high
sample. -/
theorem Button.Rising.update_due {k : Nat} (hb : b.Rising k) (due : b.nextTick < now) :
    ((buttonUpdate v now true b).stateChanged = true ∧ (buttonUpdate v now true b).Down) ∨
      ((buttonUpdate v now true b).stateChanged = false ∧ (buttonUpdate v now true b).Rising (k + 1)) := by
  have high := newestHigh_shiftSample hb.high hb.few
  rw [buttonUpdate_samples due]
  by_cases ones : shiftSample b.reg true = 0xFF
  · refine .inl ⟨?_, debounced_ones b.state ones, ones⟩
    rw [debounced_ones b.state ones, hb.released]; rfl
  · have mixed := debounced_mixed b.state ones (shiftSample_true_ne_zero b.reg)
    have few : k + 1 ≠ 8 := fun full => ones (eq_ones_of_newestHigh (full ▸ high))
    have below := hb.few
    refine .inr ⟨?_, mixed.trans hb.released, by omega, high⟩
    rw [mixed, hb.released]; rfl

theorem Button.Rising.update_waits {k : Nat} (hb : b.Rising k) (waits : ¬ b.nextTick < now) :
    (buttonUpdate v now true b).stateChanged = false ∧ (buttonUpdate v now true b).Rising k := by
  rw [buttonUpdate_waits waits]
  exact ⟨rfl, hb.released, hb.few, hb.high⟩

end

section
variable {i : Fin 2} {p : InPorts} {ps : List InPorts} {s t : State}

/-- The run ends with Button `i` pressed, and its flag is never up. -/
def staysPressed (i : Fin 2) (ps : List InPorts) (s : State) : Prop :=
  (∃ t, runOn ps s = .next t ∧ (Two.get t.btn i).state = true) ∧
    ∀ t ∈ traceOn ps s, (Two.get t.btn i).stateChanged = false

/-- The run ends with Button `i` pressed, and its flag is up after one pass, with a register of all ones. -/
def flipsOnce (i : Fin 2) (ps : List InPorts) (s : State) : Prop :=
  (∃ t, runOn ps s = .next t ∧ (Two.get t.btn i).state = true) ∧
    (traceOn ps s).countP (fun t => (Two.get t.btn i).stateChanged) = 1 ∧
    ∀ t ∈ traceOn ps s, (Two.get t.btn i).stateChanged = true → (Two.get t.btn i).reg = 0xFF

theorem staysPressed_cons (h : passOn p s = .next t) (flag : (Two.get t.btn i).stateChanged = false)
    (rest : staysPressed i ps t) : staysPressed i (p :: ps) s := by
  obtain ⟨⟨u, hu, pressed⟩, noFlipRest⟩ := rest
  refine ⟨⟨u, runOn_cons.mpr ⟨t, h, hu⟩, pressed⟩, ?_⟩
  rw [traceOn_cons_of_next h]
  exact List.forall_mem_cons.mpr ⟨flag, noFlipRest⟩

theorem flipsOnce_cons_of_no_flip (h : passOn p s = .next t) (flag : (Two.get t.btn i).stateChanged = false)
    (rest : flipsOnce i ps t) : flipsOnce i (p :: ps) s := by
  obtain ⟨⟨u, hu, pressed⟩, once, full⟩ := rest
  refine ⟨⟨u, runOn_cons.mpr ⟨t, h, hu⟩, pressed⟩, ?_⟩
  rw [traceOn_cons_of_next h, List.countP_cons_of_neg (by simp [flag])]
  exact ⟨once, List.forall_mem_cons.mpr ⟨by simp [flag], full⟩⟩

theorem flipsOnce_cons_of_flip (h : passOn p s = .next t) (flag : (Two.get t.btn i).stateChanged = true)
    (ones : (Two.get t.btn i).reg = 0xFF) (rest : staysPressed i ps t) : flipsOnce i (p :: ps) s := by
  obtain ⟨⟨u, hu, pressed⟩, noFlipRest⟩ := rest
  have noFlip : (traceOn ps t).countP (fun t => (Two.get t.btn i).stateChanged) = 0 :=
    List.countP_eq_zero.mpr fun u hu => by simp [noFlipRest u hu]
  refine ⟨⟨u, runOn_cons.mpr ⟨t, h, hu⟩, pressed⟩, ?_⟩
  rw [traceOn_cons_of_next h, List.countP_cons_of_pos (by simp [flag]), noFlip]
  exact ⟨rfl, List.forall_mem_cons.mpr ⟨fun _ => ones, fun u hu up => by simp [noFlipRest u hu] at up⟩⟩

/-- A pressed Button stays pressed while the pin is high. -/
theorem staysPressed_of_down (hs : s.legal = true) (hb : (Two.get s.btn i).Down)
    (held : ∀ p ∈ ps, p.rst = false ∧ Two.get p.btnIn i = true) : staysPressed i ps s := by
  induction ps generalizing s with
  | nil => exact ⟨⟨s, rfl, hb.pressed⟩, by simp [traceOn]⟩
  | cons p ps ih =>
    obtain ⟨⟨hr, pin⟩, heldRest⟩ := List.forall_mem_cons.mp held
    obtain ⟨t, answers, legal, button⟩ := passOn_answers_btn hs hr i
    rw [pin] at button
    obtain ⟨down, flag⟩ := hb.update_high (v := s.cfg.buttonUpdateInterval) (now := p.tick)
    rw [← button] at down flag
    exact staysPressed_cons answers flag (ih legal down heldRest)

/-- A released Button with `k` high samples behind it flips once when the run completes the eight: every pass
waits, adds a high sample, or flips it. -/
theorem flipsOnce_of_rising {k : Nat} (hs : s.legal = true) (hb : (Two.get s.btn i).Rising k)
    (held : ∀ p ∈ ps, p.rst = false ∧ Two.get p.btnIn i = true) (enough : 8 ≤ k + samplesTaken i ps s) :
    flipsOnce i ps s := by
  induction ps generalizing s k with
  | nil =>
    have few := hb.few
    rw [samplesTaken] at enough
    omega
  | cons p ps ih =>
    obtain ⟨⟨hr, pin⟩, heldRest⟩ := List.forall_mem_cons.mp held
    obtain ⟨t, answers, legal, button⟩ := passOn_answers_btn hs hr i
    rw [samplesTaken_cons_of_next answers] at enough
    rw [pin] at button
    by_cases due : (Two.get s.btn i).nextTick < p.tick
    · rw [if_pos (deadlinePassed_iff.mpr due)] at enough
      have sampled := hb.update_due (v := s.cfg.buttonUpdateInterval) due
      rw [← button] at sampled
      obtain ⟨flag, down⟩ | ⟨flag, rising⟩ := sampled
      · exact flipsOnce_cons_of_flip answers flag down.ones (staysPressed_of_down legal down heldRest)
      · exact flipsOnce_cons_of_no_flip answers flag (ih legal rising heldRest (by omega))
    · rw [if_neg (mt deadlinePassed_iff.mp due)] at enough
      have waited := hb.update_waits (v := s.cfg.buttonUpdateInterval) due
      rw [← button] at waited
      obtain ⟨flag, rising⟩ := waited
      exact flipsOnce_cons_of_no_flip answers flag (ih legal rising heldRest (by omega))

end

/-- Settles O27: at the start no sample counts as high, whatever the register holds. -/
theorem steadyPressFlipsExactlyOnce : Obligations.SteadyPressFlipsExactlyOnce := by
  intro i s ps hs released held enough
  exact flipsOnce_of_rising (k := 0) hs ⟨released, by omega, nofun⟩ held (by omega)

end Sys2Proof.Machine

/-! SUPPORT. The Clock commands (R77 to R80), the Clocks in a pass under the sentinel (R75, R107), and runs of
chosen inputs. -/

namespace Sys2Proof

/-- A command word is its operation code, unit number and operand, each shifted to its place (R45, R46). -/
theorem encode_eq_or (i : Instr) :
    encode i = (i.op.setWidth 32 <<< 24) ||| (i.idx.setWidth 32 <<< 16) ||| i.imm.setWidth 32 := by
  apply BitVec.eq_of_getLsbD_eq
  intro k hk
  rw [encode, Laws.EncodedFields.bit_append]
  simp only [BitVec.getLsbD_or, BitVec.getLsbD_shiftLeft, BitVec.getLsbD_setWidth]
  have operandEnds : 16 ≤ k → i.imm.getLsbD k = false := BitVec.getLsbD_of_ge _ _
  have unitEnds : 8 ≤ k - 16 → i.idx.getLsbD (k - 16) = false := BitVec.getLsbD_of_ge _ _
  split
  next low => simp [hk, low, show k < 24 by omega]
  next high =>
    rw [operandEnds (by omega)]
    split
    next mid => simp [hk, high, show k < 24 by omega, show k - 16 < 32 by omega]
    next top =>
      rw [unitEnds (by omega), show k - 16 - 8 = k - 24 by omega]
      simp [hk, show ¬ k < 24 by omega, show k - 24 < 32 by omega]

end Sys2Proof

namespace Sys2Proof.Machine

/-- Every unit of a bank is the one that its own number names (R48). -/
theorem unitOf_ofNat {n : Nat} (hn : n ≤ 256) (k : Fin n) : unitOf n (BitVec.ofNat 8 k.val) = some k := by
  have small : k.val < 256 := Nat.lt_of_lt_of_le k.isLt hn
  rw [unitOf_eq_some, BitVec.toNat_ofNat, Nat.mod_eq_of_lt small]

/-- The dividers' quotient fits its register: `TICK_FREQ * 10` is below `2^52` (R4, D33). -/
theorem tenfold_quotient_toNat (tickFreq : BitVec 48) (d : Nat) :
    (BitVec.ofNat 64 (tickFreq.toNat * 10 / d)).toNat = tickFreq.toNat * 10 / d ∧
      (BitVec.ofNat 64 (tickFreq.toNat * 10 / d)).toNat < 2 ^ 52 := by
  have tenfold : tickFreq.toNat * 10 / d ≤ tickFreq.toNat * 10 := Nat.div_le_self _ _
  have freq : tickFreq.toNat < 2 ^ 48 := tickFreq.isLt
  have exactly : (BitVec.ofNat 64 (tickFreq.toNat * 10 / d)).toNat = tickFreq.toNat * 10 / d :=
    by
    rw [BitVec.toNat_ofNat, Nat.mod_eq_of_lt (by omega)]
  exact ⟨exactly, by omega⟩

section
variable {s t u : State}

/-! ### The Clock commands (R77 to R80) -/

theorem execCfreq_of_unit {c : BitVec 8} {f : BitVec 16} {i : Fin 2} (hc : unitOf 2 c = some i) (hf : f ≠ 0) :
    execCfreq c f s = .next (s.accept.setClk i (clockSetFreq s.cfg.tickFreq f (Two.get s.clk i))) := by
  rw [execCfreq, hc]
  exact congrArg _ (if_neg hf)

theorem execCfreq_of_no_unit {c : BitVec 8} (f : BitVec 16) (hc : unitOf 2 c = none) :
    execCfreq c f s = .next s.refuse := by
  rw [execCfreq, hc]

theorem execCauto_of_unit {c : BitVec 8} {i : Fin 2} (hc : unitOf 2 c = some i) :
    execCauto c s = .next (s.accept.setClk i (clockToggleAuto s.now (Two.get s.clk i))) := by
  rw [execCauto, hc]

theorem execCauto_of_no_unit {c : BitVec 8} (hc : unitOf 2 c = none) : execCauto c s = .next s.refuse := by
  rw [execCauto, hc]

theorem toggleClockMode_eq (m : ClockMode) : toggleClockMode m = if m = .manual then .auto else .manual := by
  cases m <;> rfl

theorem State.syncClocks_of_sentinel (deadline : Tick) (h : s.seq.curProg = 0) :
    s.syncClocks deadline =
      { s with
        clk := { s.clk with u1 := { s.clk.u1 with state := s.clk.u0.state, nextTick := deadline } } } :=
  if_pos h

theorem State.syncClocks_of_program (deadline : Tick) (h : s.seq.curProg ≠ 0) : s.syncClocks deadline = s :=
  if_neg h

/-! ### The Clocks in a pass under the sentinel (R75, R107) -/

theorem clockUpdate_toggles {now : Tick} {b : Button} {c : Clock} (auto : c.mode = .auto) (due : c.nextTick < now) :
    clockUpdate now b c = { c with state := !c.state, nextTick := c.nextTick + c.ticksPerStep } :=
  (clockUpdate_auto auto).trans (if_pos due)

theorem clockUpdate_waits {now : Tick} {b : Button} {c : Clock} (auto : c.mode = .auto)
    (waits : ¬ c.nextTick < now) : clockUpdate now b c = c :=
  (clockUpdate_auto auto).trans (if_neg waits)

/-- What the updates of a pass at tick `now` make of the Clocks and of the sequencer when they run from `u` under
the sentinel and end in `t`. -/
structure State.ClocksUpdated (now : Tick) (u t : State) : Prop where
  clk : ∀ i, Two.get t.clk i = clockUpdate now (Two.get t.btn i) (Two.get u.clk i)
  seq : t.seq = u.seq

/-- A pass whose command leaves the sentinel active updates each Clock from what the command left of it. -/
theorem step_updates_clocks (hr : s.ports.rst = false) (taken : s.takeCommand = .next u)
    (sentinel : u.seq.curProg = 0) (h : step s = .next t) : State.ClocksUpdated s.ports.tick u t := by
  rcases step_cases h with ⟨reset, -⟩ | ⟨-, -, v, taken', rfl⟩
  · rw [hr] at reset; cases reset
  · cases taken.symm.trans taken'
    obtain ⟨clocks, sequencer⟩ := State.updates_of_sentinel sentinel
    refine ⟨fun i => ?_, by rw [State.nextEdge_seq, sequencer]⟩
    rw [State.nextEdge_clk, State.nextEdge_btn, clocks, (State.CommandFrame.takeCommand taken).ports]
    fin_cases i <;> rfl

/-! ### Runs of chosen inputs -/

theorem quiet_iff {p : InPorts} : quiet p = true ↔ p.rst = false ∧ p.cmdValid = false := by
  simp [quiet]

/-- What the passes on the inputs of a run keep holds after the run. -/
theorem runOn_keeps_of_mem {P : State → Prop} {ps : List InPorts}
    (kept : ∀ p ∈ ps, ∀ u v, passOn p u = .next v → P u → P v) (h : runOn ps s = .next t) (hs : P s) :
    P t := by
  induction ps generalizing s with
  | nil => cases h; exact hs
  | cons p ps ih =>
    obtain ⟨u, hu, ht⟩ := runOn_cons.mp h
    exact ih (fun q hq => kept q (List.mem_cons_of_mem p hq)) ht (kept p List.mem_cons_self s u hu hs)

theorem runOn_append {ps qs : List InPorts} :
    runOn (ps ++ qs) s = .next t ↔ ∃ u, runOn ps s = .next u ∧ runOn qs u = .next t := by
  induction ps generalizing s with
  | nil => simp [runOn]
  | cons p ps ih =>
    rw [List.cons_append, runOn_cons]
    simp only [ih, runOn_cons]
    constructor
    · rintro ⟨v, hv, u, hu, ht⟩; exact ⟨u, ⟨v, hv, hu⟩, ht⟩
    · rintro ⟨u, ⟨v, hv, hu⟩, ht⟩; exact ⟨v, hv, u, hu, ht⟩

end

end Sys2Proof.Machine

/-! SUPPORT. Two Auto Clocks with equal dividers under the sentinel: under one deadline, or one divider apart
(R75, R79, R80, R146). -/

namespace Sys2Proof.Machine

/-- The Clocks run by their dividers, and the dividers are equal. -/
structure State.AutoClocks (s : State) : Prop where
  sentinel : s.seq.curProg = 0
  auto0 : s.clk.u0.mode = .auto
  auto1 : s.clk.u1.mode = .auto
  divider : s.clk.u0.ticksPerStep = s.clk.u1.ticksPerStep

/-- Auto Clocks that toggle in the same passes: as CSYNC leaves them, and as CSYNCO does once clock 0 has
toggled. -/
structure State.OneDeadline (s : State) : Prop extends s.AutoClocks where
  deadline : s.clk.u0.nextTick = s.clk.u1.nextTick

/-- Auto Clocks as CSYNCO leaves them: on one level, with clock 1 due one divider after clock 0. -/
structure State.OneDividerApart (s : State) : Prop extends s.AutoClocks where
  line : s.clk.u1.state = s.clk.u0.state
  deadline : s.clk.u1.nextTick = s.clk.u0.nextTick + s.clk.u0.ticksPerStep

section
variable {s t u : State} {now : Tick}

/-! ### The updates of a pass -/

theorem State.AutoClocks.updated (hu : u.AutoClocks) (h : State.ClocksUpdated now u t) : t.AutoClocks := by
  have clk0 : t.clk.u0 = _ := h.clk 0
  have clk1 : t.clk.u1 = _ := h.clk 1
  constructor
  · rw [h.seq]; exact hu.sentinel
  · rw [clk0, clockUpdate_mode]; exact hu.auto0
  · rw [clk1, clockUpdate_mode]; exact hu.auto1
  · rw [clk0, clk1, clockUpdate_ticksPerStep, clockUpdate_ticksPerStep]; exact hu.divider

theorem State.AutoClocks.clk0_toggles (hu : u.AutoClocks) (h : State.ClocksUpdated now u t)
    (due : u.clk.u0.nextTick < now) :
    t.clk.u0 =
      { u.clk.u0 with state := !u.clk.u0.state, nextTick := u.clk.u0.nextTick + u.clk.u0.ticksPerStep } :=
  (h.clk 0).trans (clockUpdate_toggles hu.auto0 due)

theorem State.AutoClocks.clk0_waits (hu : u.AutoClocks) (h : State.ClocksUpdated now u t)
    (waits : ¬ u.clk.u0.nextTick < now) : t.clk.u0 = u.clk.u0 :=
  (h.clk 0).trans (clockUpdate_waits hu.auto0 waits)

theorem State.AutoClocks.clk1_toggles (hu : u.AutoClocks) (h : State.ClocksUpdated now u t)
    (due : u.clk.u1.nextTick < now) :
    t.clk.u1 =
      { u.clk.u1 with state := !u.clk.u1.state, nextTick := u.clk.u1.nextTick + u.clk.u1.ticksPerStep } :=
  (h.clk 1).trans (clockUpdate_toggles hu.auto1 due)

theorem State.AutoClocks.clk1_waits (hu : u.AutoClocks) (h : State.ClocksUpdated now u t)
    (waits : ¬ u.clk.u1.nextTick < now) : t.clk.u1 = u.clk.u1 :=
  (h.clk 1).trans (clockUpdate_waits hu.auto1 waits)

/-- Under one deadline both Clocks toggle or neither does, so the lines stay equal or stay opposite (R146). -/
theorem State.OneDeadline.updated (hu : u.OneDeadline) (h : State.ClocksUpdated now u t) :
    t.OneDeadline ∧ (t.clk.u0.state = t.clk.u1.state ↔ u.clk.u0.state = u.clk.u1.state) := by
  by_cases due : u.clk.u0.nextTick < now
  · have clk0 := hu.clk0_toggles h due
    have clk1 := hu.clk1_toggles h (hu.deadline ▸ due)
    refine ⟨{ hu.toAutoClocks.updated h with deadline := ?_ }, ?_⟩
    · rw [clk0, clk1]; exact congrArg₂ (· + ·) hu.deadline hu.divider
    · rw [clk0, clk1]; exact Bool.not_inj_iff
  · have clk0 := hu.clk0_waits h due
    have clk1 := hu.clk1_waits h (hu.deadline ▸ due)
    refine ⟨{ hu.toAutoClocks.updated h with deadline := ?_ }, ?_⟩
    · rw [clk0, clk1]; exact hu.deadline
    · rw [clk0, clk1]

/-- With neither deadline passed nothing moves. -/
theorem State.OneDividerApart.waits (hu : u.OneDividerApart) (h : State.ClocksUpdated now u t)
    (waits0 : ¬ u.clk.u0.nextTick < now) (waits1 : ¬ u.clk.u0.nextTick + u.clk.u0.ticksPerStep < now) :
    t.OneDividerApart ∧ t.clk.u0 = u.clk.u0 := by
  have clk0 := hu.clk0_waits h waits0
  have clk1 := hu.clk1_waits h (hu.deadline ▸ waits1)
  refine ⟨{ hu.toAutoClocks.updated h with line := ?_, deadline := ?_ }, clk0⟩
  · rw [clk0, clk1]; exact hu.line
  · rw [clk0, clk1]; exact hu.deadline

/-- With clock 0's deadline alone passed, clock 0 leaves the common level and its deadline becomes clock 1's: from
here on the Clocks toggle together on opposite levels (R80). -/
theorem State.OneDividerApart.parts (hu : u.OneDividerApart) (h : State.ClocksUpdated now u t)
    (due0 : u.clk.u0.nextTick < now) (waits1 : ¬ u.clk.u0.nextTick + u.clk.u0.ticksPerStep < now) :
    t.OneDeadline ∧ t.clk.u0.state = (!u.clk.u0.state) ∧ t.clk.u1.state = u.clk.u0.state ∧
      t.clk.u0.nextTick = u.clk.u0.nextTick + u.clk.u0.ticksPerStep := by
  have clk0 := hu.clk0_toggles h due0
  have clk1 := hu.clk1_waits h (hu.deadline ▸ waits1)
  refine ⟨{ hu.toAutoClocks.updated h with deadline := ?_ }, ?_, ?_, ?_⟩
  · rw [clk0, clk1]; exact hu.deadline.symm
  · rw [clk0]
  · rw [clk1]; exact hu.line
  · rw [clk0]

/-- With both deadlines passed both lines toggle, and each deadline advances by the common divider. -/
theorem State.OneDividerApart.toggles (hu : u.OneDividerApart) (h : State.ClocksUpdated now u t)
    (due0 : u.clk.u0.nextTick < now) (due1 : u.clk.u0.nextTick + u.clk.u0.ticksPerStep < now) :
    t.OneDividerApart ∧ t.clk.u0.state = (!u.clk.u0.state) ∧
      t.clk.u0.nextTick = u.clk.u0.nextTick + u.clk.u0.ticksPerStep := by
  have clk0 := hu.clk0_toggles h due0
  have clk1 := hu.clk1_toggles h (hu.deadline ▸ due1)
  refine ⟨{ hu.toAutoClocks.updated h with line := ?_, deadline := ?_ }, ?_, ?_⟩
  · rw [clk0, clk1]; exact congrArg Bool.not hu.line
  · rw [clk0, clk1]; exact congrArg₂ (· + ·) hu.deadline hu.divider.symm
  · rw [clk0]
  · rw [clk0]

end

end Sys2Proof.Machine

/-! PROOFS. The commands of the Clocks and their dividers (R77 to R80, D33). -/

namespace Sys2Proof.Machine

/-- Settles O17: CFREQ by the unit its operand names. -/
theorem cfreqSetsTheDivider : Obligations.CfreqSetsTheDivider := by
  intro s f
  have place : (0x04 : BitVec 8).setWidth 32 <<< 24 = ((0x04000000 : Nat) : CmdWord) := by decide
  refine ⟨fun c => ?encoding, fun k hf => ?unit, execCfreq_zero, fun c hc => ?noUnit⟩
  case encoding => rw [encode_eq_or, Instr.op, place, Instr.idx, Instr.imm]
  case unit => exact execCfreq_of_unit (unitOf_ofNat (by omega) k) hf
  case noUnit => exact execCfreq_of_no_unit f (unitOf_of_ge hc)

/-- Settles O19: CAUTO by the unit its operand names; it has no operand word. -/
theorem cautoTogglesTheClockMode : Obligations.CautoTogglesTheClockMode := by
  intro s
  have place : (0x06 : BitVec 8).setWidth 32 <<< 24 = 0x06000000#32 := by decide
  refine ⟨fun c => ?encoding, fun k => ?unit, fun c hc => execCauto_of_no_unit (unitOf_of_ge hc)⟩
  case encoding =>
    rw [encode_eq_or, Instr.op, place, Instr.idx, Instr.imm]
    exact BitVec.or_zero
  case unit =>
    rw [← toggleClockMode_eq]
    exact execCauto_of_unit (unitOf_ofNat (by omega) k)

/-- Settles O20: CSYNC is the copy with clock 0's deadline. -/
theorem csyncCopiesThePhase : Obligations.CsyncCopiesThePhase := by
  intro s
  refine ⟨by decide, fun h => ?_, fun h => ?_⟩
  · exact congrArg _ (State.syncClocks_of_sentinel (s := s.accept) _ h)
  · exact congrArg _ (State.syncClocks_of_program (s := s.accept) _ h)

/-- Settles O21: CSYNCO is the copy with clock 0's deadline one divider later. -/
theorem csyncoOffsetsThePhase : Obligations.CsyncoOffsetsThePhase := by
  intro s
  refine ⟨by decide, fun h => ?_, fun h => ?_⟩
  · exact congrArg _ (State.syncClocks_of_sentinel (s := s.accept) _ h)
  · exact congrArg _ (State.syncClocks_of_program (s := s.accept) _ h)

/-- Settles O32: both dividers are the same quotient by different divisors. -/
theorem dividersAreExactQuotients : Obligations.DividersAreExactQuotients := by
  intro c f P
  obtain ⟨clockExact, clockBound⟩ := tenfold_quotient_toNat c.tickFreq (f.toNat * 2)
  obtain ⟨seqExact, seqBound⟩ := tenfold_quotient_toNat c.tickFreq (f.toNat * P.len.toNat)
  exact ⟨clockExact, seqExact, clockBound, seqBound⟩

end Sys2Proof.Machine

/-! PROOFS. The Clocks in a pass, and their phase over runs (R75, R79, R80, R146). -/

namespace Sys2Proof.Machine

/-- Settles O28: CLK.UPDATE by mode and deadline, from the registers at the start of the pass. -/
theorem clocksFollowButtonOrDivider : Obligations.ClocksFollowButtonOrDivider := by
  intro s i hr hv hl sentinel
  have passes := step_of_no_command hr hv hl
  obtain ⟨clk, seq⟩ := step_updates_clocks hr (State.takeCommand_of_no_command hv) sentinel passes
  refine ⟨_, passes, fun manual => ?_, fun auto due => ?_, fun auto waits => ?_, seq⟩
  · rw [clk i, clockUpdate_manual manual]
    split <;> rfl
  · rw [clk i, clockUpdate_toggles auto due]
  · rw [clk i, clockUpdate_waits auto waits]

section
variable {s t : State} {p : InPorts}

/-- A quiet pass under the sentinel updates the Clocks from where it finds them. -/
theorem passOn_updates_clocks (hq : quiet p = true) (h : passOn p s = .next t) (sentinel : s.seq.curProg = 0) :
    State.ClocksUpdated p.tick s t := by
  obtain ⟨hr, hv⟩ := quiet_iff.mp hq
  have updated := step_updates_clocks (s := { s with ports := p }) hr (State.takeCommand_of_no_command hv) sentinel h
  exact { updated with }

/-- CSYNC leaves the Clocks under one deadline on one level (R79). -/
theorem State.AutoClocks.takeCommand_csync (hs : s.AutoClocks) (hv : s.ports.cmdValid = true)
    (hw : s.ports.cmd = 0x07000000) :
    ∃ u, s.takeCommand = .next u ∧ u.OneDeadline ∧ u.clk.u0.state = u.clk.u1.state := by
  obtain ⟨decodes, copies, -⟩ := csyncCopiesThePhase s
  have taken := (State.takeCommand_of_decode hv (hw ▸ decodes)).trans (copies hs.sentinel)
  exact ⟨_, taken, { hs with deadline := rfl }, rfl⟩

/-- CSYNCO leaves the Clocks one divider apart (R80). -/
theorem State.AutoClocks.takeCommand_csynco (hs : s.AutoClocks) (hv : s.ports.cmdValid = true)
    (hw : s.ports.cmd = 0x08000000) :
    ∃ u, s.takeCommand = .next u ∧ u.OneDividerApart ∧ u.clk.u0 = s.clk.u0 := by
  obtain ⟨decodes, offsets, -⟩ := csyncoOffsetsThePhase s
  have taken := (State.takeCommand_of_decode hv (hw ▸ decodes)).trans (offsets hs.sentinel)
  exact ⟨_, taken, { hs with line := rfl, deadline := rfl }, rfl⟩

/-- The phase of two Clocks under one deadline lasts over every quiet run. -/
theorem State.OneDeadline.runOn_quiet (hs : s.OneDeadline) {ps : List InPorts} (hq : ∀ p ∈ ps, quiet p = true)
    (h : runOn ps s = .next t) :
    t.OneDeadline ∧ (t.clk.u0.state = t.clk.u1.state ↔ s.clk.u0.state = s.clk.u1.state) := by
  refine runOn_keeps_of_mem
    (P := fun u => u.OneDeadline ∧ (u.clk.u0.state = u.clk.u1.state ↔ s.clk.u0.state = s.clk.u1.state))
    (fun p hp u v hv hu => ?_) h ⟨hs, Iff.rfl⟩
  obtain ⟨one, phase⟩ := hu
  obtain ⟨one', phase'⟩ := one.updated (passOn_updates_clocks (hq p hp) hv one.sentinel)
  exact ⟨one', phase'.trans phase⟩

/-- Two Clocks one divider apart stand still over every quiet run that passes neither deadline. -/
theorem State.OneDividerApart.runOn_waits (hs : s.OneDividerApart) {ps : List InPorts} (hq : ∀ p ∈ ps, quiet p = true)
    (waits : ∀ p ∈ ps, ¬ s.clk.u0.nextTick < p.tick ∧ ¬ s.clk.u0.nextTick + s.clk.u0.ticksPerStep < p.tick)
    (h : runOn ps s = .next t) : t.OneDividerApart ∧ t.clk.u0 = s.clk.u0 := by
  refine runOn_keeps_of_mem (P := fun u => u.OneDividerApart ∧ u.clk.u0 = s.clk.u0)
    (fun p hp u v hv hu => ?_) h ⟨hs, rfl⟩
  obtain ⟨apart, clk0⟩ := hu
  obtain ⟨waits0, waits1⟩ := waits p hp
  rw [← clk0] at waits0 waits1 ⊢
  exact apart.waits (passOn_updates_clocks (hq p hp) hv apart.sentinel) waits0 waits1

/-- A pass that takes CSYNCO and quiet passes after it leave the Clocks one divider apart, and clock 0 as it stood,
as long as they pass neither deadline. -/
theorem State.AutoClocks.runOn_csynco (hs : s.AutoClocks) {ps : List InPorts} (hr : p.rst = false)
    (hv : p.cmdValid = true) (hw : p.cmd = 0x08000000) (hq : ∀ r ∈ ps, quiet r = true)
    (waits : ∀ r ∈ p :: ps, ¬ s.clk.u0.nextTick < r.tick ∧ ¬ s.clk.u0.nextTick + s.clk.u0.ticksPerStep < r.tick)
    (h : runOn (p :: ps) s = .next t) : t.OneDividerApart ∧ t.clk.u0 = s.clk.u0 := by
  obtain ⟨v, first, rest⟩ := runOn_cons.mp h
  obtain ⟨⟨waits0, waits1⟩, waitsRest⟩ := List.forall_mem_cons.mp waits
  have presented : ({ s with ports := p } : State).AutoClocks := { hs with }
  obtain ⟨u, taken, apart, clk0⟩ := presented.takeCommand_csynco hv hw
  have clk0 : u.clk.u0 = s.clk.u0 := clk0
  rw [← clk0] at waits0 waits1 waitsRest ⊢
  obtain ⟨apart', same⟩ := apart.waits (step_updates_clocks hr taken apart.sentinel first) waits0 waits1
  rw [← same] at waitsRest ⊢
  exact apart'.runOn_waits hq waitsRest rest

end

/-- Settles O55: a quiet pass runs CLK.UPDATE on Clocks under one deadline. -/
theorem phaseRelationIsKept : Obligations.PhaseRelationIsKept := by
  intro s t hq h sentinel auto0 auto1 divider deadline
  have one : s.OneDeadline := { sentinel, auto0, auto1, divider, deadline }
  obtain ⟨⟨⟨sentinel', auto0', auto1', divider'⟩, deadline'⟩, phase⟩ :=
    one.updated (passOn_updates_clocks (s := s) hq h sentinel)
  exact ⟨sentinel', auto0', auto1', divider', deadline', phase⟩

/-- Settles O56: with or without CSYNCO the updates find the Clocks one divider apart and clock 0 as it stood. -/
theorem offsetClocksActByTheirDeadlines : Obligations.OffsetClocksActByTheirDeadlines := by
  intro s t hr h sentinel auto0 auto1 divider csyncoOrApart
  have auto : s.AutoClocks := { sentinel, auto0, auto1, divider }
  have found : ∃ u, s.takeCommand = .next u ∧ u.OneDividerApart ∧ u.clk.u0 = s.clk.u0 := by
    rcases csyncoOrApart with ⟨hv, hw⟩ | ⟨hv, line, deadline⟩
    · exact auto.takeCommand_csynco hv hw
    · exact ⟨s, State.takeCommand_of_no_command hv, { auto with line, deadline }, rfl⟩
  obtain ⟨u, taken, apart, clk0⟩ := found
  have updated := step_updates_clocks hr taken apart.sentinel h
  rw [← clk0]
  refine ⟨fun waits0 waits1 => ?_, fun due0 waits1 => ?_, fun due0 due1 => ?_⟩
  · obtain ⟨apart', same⟩ := apart.waits updated waits0 waits1
    exact ⟨same, apart'.line, apart'.deadline⟩
  · obtain ⟨one, line0, line1, deadline⟩ := apart.parts updated due0 waits1
    exact ⟨line0, line1, deadline, one.deadline.symm⟩
  · obtain ⟨apart', line0, deadline⟩ := apart.toggles updated due0 due1
    exact ⟨line0, apart'.line, deadline, apart'.deadline⟩

/-- Settles O30: CSYNC puts the Clocks under one deadline on one level, and its own pass and every later one keep
that. -/
theorem syncedClocksStayInPhase : Obligations.SyncedClocksStayInPhase := by
  intro s t p ps sentinel auto0 auto1 divider hr hv hw hq h
  obtain ⟨v, first, rest⟩ := runOn_cons.mp h
  have auto : ({ s with ports := p } : State).AutoClocks := { sentinel, auto0, auto1, divider }
  obtain ⟨u, taken, one, equal⟩ := auto.takeCommand_csync hv hw
  obtain ⟨one', phase⟩ := one.updated (step_updates_clocks hr taken one.sentinel first)
  obtain ⟨one'', phase'⟩ := one'.runOn_quiet hq rest
  exact ⟨phase'.mpr (phase.mpr equal), one''.deadline⟩

/-- Settles O31: CSYNCO puts the Clocks one divider apart, where they wait; the pass `q` parts the lines and leaves
one deadline, under which they stay opposite. -/
theorem oppositeClocksStayInAntiPhase : Obligations.OppositeClocksStayInAntiPhase := by
  intro s t p q before after sentinel auto0 auto1 divider hr hv hw hq waits due0 waits1
  obtain ⟨quietBefore, quietQ, quietAfter⟩ : (∀ r ∈ before, quiet r = true) ∧ quiet q = true ∧
      ∀ r ∈ after, quiet r = true := by
    simpa only [List.forall_mem_append, List.forall_mem_cons] using hq
  have auto : s.AutoClocks := { sentinel, auto0, auto1, divider }
  have untilClock0 {v : State} (h : runOn (p :: before) s = .next v) :=
    auto.runOn_csynco hr hv hw quietBefore waits h
  refine ⟨fun h => (untilClock0 h).1.line.symm, fun h => ?_⟩
  obtain ⟨v, hv, rest⟩ := runOn_append.mp h
  obtain ⟨w, passQ, rest⟩ := runOn_cons.mp rest
  obtain ⟨apart, clk0⟩ := untilClock0 hv
  rw [← clk0] at due0 waits1
  obtain ⟨one, line0, line1, -⟩ :=
    apart.parts (passOn_updates_clocks quietQ passQ apart.sentinel) due0 waits1
  have opposite : w.clk.u0.state ≠ w.clk.u1.state := by rw [line0, line1]; exact Bool.not_ne_self _
  obtain ⟨-, phase⟩ := one.runOn_quiet quietAfter rest
  exact Bool.eq_not.mpr fun equal => opposite (phase.mp equal)

end Sys2Proof.Machine

/-! SUPPORT. The OutputChannels and the InputChannel in a pass: each is left at a function of its own registers, the
parameters and the inputs (R22, R86, R87, R88, R96, R97); the actions of the transmit machine, one equation per state
(R85). -/

namespace Sys2Proof.Machine

section
variable {s t : State}

/-! ### OSET and OREV (R86, R87) -/

theorem execOset_of_unit {c : BitVec 8} {v : BitVec 16} {k : Fin 4} (hc : unitOf 4 c = some k) :
    execOset c v s = .next (s.accept.setOut k { outputRestart s.now (Four.get s.out k) with data := v }) := by
  rw [execOset, hc]

theorem execOset_of_no_unit {c : BitVec 8} (v : BitVec 16) (hc : unitOf 4 c = none) :
    execOset c v s = .next s.refuse := by
  rw [execOset, hc]

theorem execOrev_of_unit {c : BitVec 8} {k : Fin 4} (hc : unitOf 4 c = some k) :
    execOrev c s =
      .next (s.accept.setOut k
        { outputRestart s.now (Four.get s.out k) with reverse := !(Four.get s.out k).reverse }) := by
  rw [execOrev, hc]

theorem execOrev_of_no_unit {c : BitVec 8} (hc : unitOf 4 c = none) : execOrev c s = .next s.refuse := by
  rw [execOrev, hc]

/-! ### What a command makes of a channel and of the receiver -/

/-- What a command taken at `now` makes of the registers `o` of channel `ch`: OSET and OREV of this channel restart it,
every other command leaves it (R86, R87). -/
def commandOutput (now : Tick) (ch : Fin 4) (i : Instr) (o : OutputChannel) : OutputChannel :=
  match i with
  | .oset c v => if unitOf 4 c = some ch then { outputRestart now o with data := v } else o
  | .orev c => if unitOf 4 c = some ch then { outputRestart now o with reverse := !o.reverse } else o
  | _ => o

/-- What a command makes of the receiver: IACK clears the flag (R96). -/
def commandInput (i : Instr) (r : InputChannel) : InputChannel :=
  match i with
  | .iack => { r with dataChanged := false }
  | _ => r

/-- `t` has the four channels and the receiver of `s`. -/
structure State.SameChannels (s t : State) : Prop where
  out : t.out = s.out
  inp : t.inp = s.inp

theorem State.SameChannels.execPsel {n : BitVec 16} (h : execPsel n s = .next t) : s.SameChannels t := by
  cases h
  split <;> exact ⟨rfl, rfl⟩

theorem State.SameChannels.execCfreq {c : BitVec 8} {f : BitVec 16} (h : execCfreq c f s = .next t) :
    s.SameChannels t := by
  cases h
  split
  next =>
    split
    next => exact ⟨rfl, rfl⟩
    next => exact ⟨rfl, rfl⟩
  next => exact ⟨rfl, rfl⟩

theorem State.SameChannels.execPfreq {f : BitVec 16} (h : execPfreq f s = .next t) : s.SameChannels t := by
  unfold Machine.execPfreq at h
  split at h
  next => cases h; exact ⟨rfl, rfl⟩
  next =>
    split at h
    next => cases h; exact ⟨rfl, rfl⟩
    next => cases h

theorem State.SameChannels.execCauto {c : BitVec 8} (h : execCauto c s = .next t) : s.SameChannels t := by
  cases h
  split <;> exact ⟨rfl, rfl⟩

theorem State.SameChannels.syncClocks (s : State) (deadline : Tick) : s.SameChannels (s.syncClocks deadline) := by
  unfold State.syncClocks
  split <;> exact ⟨rfl, rfl⟩

/-- A write of one unit of a bank, seen from unit `j`. -/
theorem Four.get_set {α : Type} (b : Four α) (k j : Fin 4) (a : α) :
    Four.get (Four.set b k a) j = if k = j then a else Four.get b j := by
  split
  next same => rw [← same, Four.get_set_self]
  next other => exact Four.get_set_of_ne b k j a (Ne.symm other)

/-- A command that applies `f` to the channel its operand names, seen from channel `ch`. -/
theorem get_out_of_unit {c : BitVec 8} {k : Fin 4} (hc : unitOf 4 c = some k) (f : OutputChannel → OutputChannel)
    (ch : Fin 4) :
    Four.get (s.accept.setOut k (f (Four.get s.out k))).out ch =
      if unitOf 4 c = some ch then f (Four.get s.out ch) else Four.get s.out ch := by
  simp only [hc, State.setOut_out, State.accept_out, Four.get_set, Option.some.injEq]
  split
  next same => rw [same]
  next => rfl

theorem execOset_out {c : BitVec 8} {v : BitVec 16} (h : execOset c v s = .next t) (ch : Fin 4) :
    Four.get t.out ch = commandOutput s.ports.tick ch (.oset c v) (Four.get s.out ch) := by
  cases hc : unitOf 4 c with
  | none => cases (execOset_of_no_unit v hc).symm.trans h; simp [commandOutput, hc]
  | some k =>
    cases (execOset_of_unit hc).symm.trans h
    exact get_out_of_unit hc (fun o => { outputRestart s.ports.tick o with data := v }) ch

theorem execOrev_out {c : BitVec 8} (h : execOrev c s = .next t) (ch : Fin 4) :
    Four.get t.out ch = commandOutput s.ports.tick ch (.orev c) (Four.get s.out ch) := by
  cases hc : unitOf 4 c with
  | none => cases (execOrev_of_no_unit hc).symm.trans h; simp [commandOutput, hc]
  | some k =>
    cases (execOrev_of_unit hc).symm.trans h
    exact get_out_of_unit hc (fun o => { outputRestart s.ports.tick o with reverse := !o.reverse }) ch

/-- Every command but OSET, OREV and IACK leaves all four channels and the receiver. -/
theorem State.SameChannels.exec {i : Instr} (h : exec i s = .next t) (oset : ∀ c v, i ≠ .oset c v)
    (orev : ∀ c, i ≠ .orev c) (iack : i ≠ .iack) : s.SameChannels t := by
  cases i with
  | oset c v => exact absurd rfl (oset c v)
  | orev c => exact absurd rfl (orev c)
  | iack => exact absurd rfl iack
  | nop => cases h; exact ⟨rfl, rfl⟩
  | psel n => exact execPsel h
  | cfreq c f => exact execCfreq h
  | pfreq f => exact execPfreq h
  | cauto c => exact execCauto h
  | csync => cases h; exact { syncClocks s.accept _ with }
  | csynco => cases h; exact { syncClocks s.accept _ with }
  | pauto => cases h; exact ⟨rfl, rfl⟩

theorem exec_out {i : Instr} (h : exec i s = .next t) (ch : Fin 4) :
    Four.get t.out ch = commandOutput s.ports.tick ch i (Four.get s.out ch) := by
  cases i with
  | oset c v => exact execOset_out h ch
  | orev c => exact execOrev_out h ch
  | iack => cases h; rfl
  | _ => exact congrArg (Four.get · ch) (State.SameChannels.exec h nofun nofun nofun).out

theorem exec_inp {i : Instr} (h : exec i s = .next t) : t.inp = commandInput i s.inp := by
  cases i with
  | oset c v => cases h; split <;> rfl
  | orev c => cases h; split <;> rfl
  | iack => cases h; rfl
  | _ => exact (State.SameChannels.exec h nofun nofun nofun).inp

/-! ### Passes without reset -/

/-- What the command port of a pass makes of channel `ch` (R61, R64). -/
def portOutput (p : InPorts) (ch : Fin 4) (o : OutputChannel) : OutputChannel :=
  if p.cmdValid then
    match decode p.cmd with
    | .ok i => commandOutput p.tick ch i o
    | .error _ => o
  else o

/-- What the command port of a pass makes of the receiver (R61, R64). -/
def portInput (p : InPorts) (r : InputChannel) : InputChannel :=
  if p.cmdValid then
    match decode p.cmd with
    | .ok i => commandInput i r
    | .error _ => r
  else r

theorem State.takeCommand_channels (h : s.takeCommand = .next t) :
    (∀ ch, Four.get t.out ch = portOutput s.ports ch (Four.get s.out ch)) ∧ t.inp = portInput s.ports s.inp := by
  unfold portOutput portInput
  cases hv : s.ports.cmdValid with
  | false => cases (State.takeCommand_of_no_command hv).symm.trans h; exact ⟨fun _ => rfl, rfl⟩
  | true =>
    cases hd : decode s.ports.cmd with
    | error e => cases (State.takeCommand_of_error hv hd).symm.trans h; exact ⟨fun _ => rfl, rfl⟩
    | ok i =>
      have executed := (State.takeCommand_of_decode hv hd).symm.trans h
      exact ⟨exec_out executed, exec_inp executed⟩

/-- Each channel after a pass without reset: the command, then OUT.UPDATE, on its own registers (R60, R85, R88). -/
theorem step_out (hr : s.ports.rst = false) (h : step s = .next t) (ch : Fin 4) :
    Four.get t.out ch =
      outputUpdate s.cfg.outputTickInterval s.ports.tick (portOutput s.ports ch (Four.get s.out ch)) := by
  rcases step_cases h with ⟨reset, -⟩ | ⟨-, -, u, taken, rfl⟩
  · rw [hr] at reset; cases reset
  · have frame := State.CommandFrame.takeCommand taken
    rw [State.nextEdge_out, State.updates_out, frame.cfg, frame.ports, (State.takeCommand_channels taken).1]

/-- The receiver after a pass without reset: the command, then IN.UPDATE, on its own registers (R60, R95, R97). -/
theorem step_inp (hr : s.ports.rst = false) (h : step s = .next t) :
    t.inp = inputUpdate s.cfg.inputTickInterval s.ports.tick s.ports.inData (portInput s.ports s.inp) := by
  rcases step_cases h with ⟨reset, -⟩ | ⟨-, -, u, taken, rfl⟩
  · rw [hr] at reset; cases reset
  · have frame := State.CommandFrame.takeCommand taken
    rw [State.nextEdge_inp, State.updates_inp, frame.cfg, frame.ports, (State.takeCommand_channels taken).2]

/-- A reset pass ends in the reset state (R126, R135). -/
theorem eq_resetPass_of_step (hr : s.ports.rst = true) (h : step s = .next t) : t = s.resetPass.nextEdge := by
  cases (step_of_rst hr).symm.trans h; rfl

theorem portOutput_of_no_command {p : InPorts} (hv : p.cmdValid = false) (ch : Fin 4) (o : OutputChannel) :
    portOutput p ch o = o := by
  rw [portOutput, hv]; rfl

/-- A legal state answers quiet inputs in a legal state, with each channel at its own OUT.UPDATE. -/
theorem passOn_answers_out {p : InPorts} (hs : s.legal = true) (hq : quiet p = true) (ch : Fin 4) :
    ∃ t, passOn p s = .next t ∧ t.legal = true ∧
      Four.get t.out ch = outputUpdate s.cfg.outputTickInterval p.tick (Four.get s.out ch) := by
  obtain ⟨hr, hv⟩ := quiet_iff.mp hq
  obtain ⟨t, answers, legal⟩ := legalStatesAlwaysStep { s with ports := p } (.inr hs)
  have updated := step_out (s := { s with ports := p }) hr answers ch
  rw [portOutput_of_no_command hv] at updated
  exact ⟨t, answers, legal, updated⟩

/-- The deadline has passed in the first pass, and in every pass of the rest. -/
theorem dueEvery_cons {d : State → Tick} {p : InPorts} {ps : List InPorts} (h : dueEvery d (p :: ps) s = true) :
    d s < p.tick ∧ ∀ t, passOn p s = .next t → dueEvery d ps t = true := by
  rw [dueEvery, Bool.and_eq_true, deadlinePassed_iff] at h
  obtain ⟨first, rest⟩ := h
  exact ⟨first, fun t answers => by rwa [answers] at rest⟩

end

/-! ### The actions of the transmit machine (R85) -/

section
variable {o : OutputChannel}

theorem outputAction_idle (h : o.st = .idle) : outputAction o = o := by
  rw [outputAction, h]

theorem outputAction_pause (h : o.st = .pause) :
    outputAction o =
      { o with
        dataPin := slotBit o.data o.reverse (if o.last then 15 else o.bit.toNat)
        bit := if o.last then o.bit else o.bit + 1
        st := .dataSet } := by
  rw [outputAction, h]

theorem outputAction_dataSet (h : o.st = .dataSet) :
    outputAction o = { o with enablePin := true, st := .enableSet } := by
  rw [outputAction, h]

/-- EnableSet in one equation, for a count in its range: after sixteen slots the flush slot is due, and after the flush
slot the channel is done (90_conflicts.md C2). -/
theorem outputAction_enableSet (h : o.st = .enableSet) (range : o.bit.toNat ≤ 16) :
    outputAction o =
      { o with
        enablePin := false
        last := o.last || decide (o.bit.toNat = 16)
        st := if o.bit.toNat = 16 ∧ o.last = true then .idle else .pause } := by
  rw [outputAction, h]
  dsimp only
  rcases Nat.lt_or_eq_of_le range with more | full
  · simp [more, more.ne]
  · cases o.last <;> simp [full]

/-- No action reads or writes the deadline. -/
theorem outputAction_withDeadline (o : OutputChannel) (d : Tick) :
    outputAction { o with nextTick := d } = { outputAction o with nextTick := d } := by
  obtain ⟨st, _, _, _, _, _, _, _⟩ := o
  cases st with
  | enableSet => dsimp only [outputAction]; split_ifs <;> rfl
  | _ => rfl

/-- A due pass is one action, but for the deadline; an Idle channel's action is none. -/
theorem outputUpdate_of_due {v : BitVec 32} {now : Tick} (due : o.nextTick < now) :
    ∃ d, outputUpdate v now o = { outputAction o with nextTick := d } := by
  by_cases idle : o.st = .idle
  · exact ⟨o.nextTick, by rw [outputUpdate_idle idle, outputAction_idle idle]⟩
  · exact ⟨_, outputUpdate_acts idle due⟩

end

end Sys2Proof.Machine

/-! SUPPORT. A transmission: a quiet run of due passes is a run of actions, and three actions are a slot (R85, S2). -/

namespace Sys2Proof.Machine

/-! ### Runs of due passes -/

/-- The registers of channel `ch` in `t` are `o`, but for the deadline. -/
def State.ShowsChannel (ch : Fin 4) (o : OutputChannel) (t : State) : Prop :=
  ∃ d, Four.get t.out ch = { o with nextTick := d }

section
variable {s t : State} {ch : Fin 4} {o : OutputChannel} {p : InPorts} {ps : List InPorts}

/-- A quiet due pass is one action. -/
theorem State.ShowsChannel.passOn_due (hs : s.legal = true) (ho : s.ShowsChannel ch o) (hq : quiet p = true)
    (due : (Four.get s.out ch).nextTick < p.tick) :
    ∃ t, passOn p s = .next t ∧ t.legal = true ∧ t.ShowsChannel ch (outputAction o) := by
  obtain ⟨t, answers, legal, updated⟩ := passOn_answers_out hs hq ch
  obtain ⟨d, acted⟩ := outputUpdate_of_due (v := s.cfg.outputTickInterval) due
  obtain ⟨e, shown⟩ := ho
  refine ⟨t, answers, legal, d, ?_⟩
  rw [updated, acted, shown, outputAction_withDeadline]

/-- `n` quiet due passes are `n` actions: the trace shows the channel after each of them. -/
theorem State.ShowsChannel.runOn_due (hs : s.legal = true) (ho : s.ShowsChannel ch o)
    (hq : ∀ p ∈ ps, quiet p = true) (due : dueEvery (fun u => (Four.get u.out ch).nextTick) ps s = true) :
    (∀ k < ps.length, ∃ t, (traceOn ps s)[k]? = some t ∧ t.ShowsChannel ch (outputAction^[k + 1] o)) ∧
      ∃ t, runOn ps s = .next t ∧ t.ShowsChannel ch (outputAction^[ps.length] o) := by
  induction ps generalizing s o with
  | nil => exact ⟨nofun, s, rfl, ho⟩
  | cons p ps ih =>
    obtain ⟨quietP, quietRest⟩ := List.forall_mem_cons.mp hq
    obtain ⟨dueP, dueRest⟩ := dueEvery_cons due
    obtain ⟨t, answers, legal, shown⟩ := ho.passOn_due hs quietP dueP
    obtain ⟨trace, u, runs, final⟩ := ih legal shown quietRest (dueRest t answers)
    refine ⟨fun k hk => ?_, u, runOn_cons.mpr ⟨t, answers, runs⟩, final⟩
    rw [traceOn_cons_of_next answers]
    cases k with
    | zero => exact ⟨t, rfl, shown⟩
    | succ k => exact trace k (Nat.lt_of_succ_lt_succ hk)

end

/-! ### Slots -/

/-- `r` is the channel at the start of slot `i` of the transmission that started from `o`, slot 16 the flush slot. -/
structure OutputChannel.StartsSlot (o : OutputChannel) (i : Nat) (r : OutputChannel) : Prop where
  st : r.st = .pause
  bit : r.bit.toNat = i
  last : r.last = decide (i = 16)
  data : r.data = o.data
  reverse : r.reverse = o.reverse
  enable : r.enablePin = if i = 0 then o.enablePin else false

section
variable {o r : OutputChannel} {i : Nat}

/-- The Pause action puts the slot's bit on the data pin; the flush slot repeats slot 15. -/
theorem OutputChannel.StartsSlot.pauseAction (h : o.StartsSlot i r) (hi : i ≤ 16) :
    outputAction r =
      { r with
        dataPin := slotBit o.data o.reverse (min i 15)
        bit := BitVec.ofNat 5 (min (i + 1) 16)
        st := .dataSet } := by
  rw [outputAction_pause h.st, h.last, h.data, h.reverse, h.bit]
  have carried : (if i = 16 then 15 else i) = min i 15 := by split_ifs <;> omega
  have counted : (if i = 16 then r.bit else r.bit + 1) = BitVec.ofNat 5 (min (i + 1) 16) := by
    have := h.bit
    split_ifs <;> bv_omega
  simp only [decide_eq_true_eq, carried, counted]

theorem OutputChannel.StartsSlot.dataSetAction (h : o.StartsSlot i r) (hi : i ≤ 16) :
    outputAction (outputAction r) =
      { r with
        dataPin := slotBit o.data o.reverse (min i 15)
        bit := BitVec.ofNat 5 (min (i + 1) 16)
        enablePin := true
        st := .enableSet } := by
  rw [h.pauseAction hi, outputAction_dataSet rfl]

/-- Slot 15 sets `last`, and the flush slot ends in Idle. -/
theorem OutputChannel.StartsSlot.enableSetAction (h : o.StartsSlot i r) (hi : i ≤ 16) :
    outputAction (outputAction (outputAction r)) =
      { r with
        dataPin := slotBit o.data o.reverse (min i 15)
        bit := BitVec.ofNat 5 (min (i + 1) 16)
        enablePin := false
        last := decide (15 ≤ i)
        st := if i = 16 then .idle else .pause } := by
  have count : (BitVec.ofNat 5 (min (i + 1) 16)).toNat = min (i + 1) 16 := by
    rw [BitVec.toNat_ofNat, Nat.mod_eq_of_lt (by omega)]
  have full : min (i + 1) 16 = 16 ↔ 15 ≤ i := by omega
  have done : 15 ≤ i ∧ i = 16 ↔ i = 16 := by omega
  have flush : (decide (i = 16) || decide (15 ≤ i)) = decide (15 ≤ i) := by
    rw [← Bool.decide_or]; exact decide_eq_decide.mpr (by omega)
  rw [h.dataSetAction hi, outputAction_enableSet rfl (by dsimp only; omega)]
  simp only [count, h.last, full, flush, decide_eq_true_eq, done]

/-- The pins in the three states of a slot. -/
theorem OutputChannel.StartsSlot.pins {a b c : State} {ch : Fin 4} (h : o.StartsSlot i r) (hi : i ≤ 16)
    (showsA : a.ShowsChannel ch (outputAction r)) (showsB : b.ShowsChannel ch (outputAction (outputAction r)))
    (showsC : c.ShowsChannel ch (outputAction (outputAction (outputAction r)))) :
    (∀ u ∈ [a, b, c], (Four.get u.out ch).dataPin = slotBit o.data o.reverse (min i 15)) ∧
      (Four.get a.out ch).enablePin = (if i = 0 then o.enablePin else false) ∧
      (Four.get b.out ch).enablePin = true ∧ (Four.get c.out ch).enablePin = false := by
  rw [h.pauseAction hi] at showsA
  rw [h.dataSetAction hi] at showsB
  rw [h.enableSetAction hi] at showsC
  obtain ⟨_, showsA⟩ := showsA
  obtain ⟨_, showsB⟩ := showsB
  obtain ⟨_, showsC⟩ := showsC
  simpa [showsA, showsB, showsC] using h.enable

/-- The flush slot leaves the channel Idle with all bits counted. -/
theorem OutputChannel.StartsSlot.flushed {t : State} {ch : Fin 4} (h : o.StartsSlot 16 r)
    (shows : t.ShowsChannel ch (outputAction (outputAction (outputAction r)))) :
    (Four.get t.out ch).st = .idle ∧ (Four.get t.out ch).bit = 16 ∧ (Four.get t.out ch).last = true := by
  rw [h.enableSetAction (by omega)] at shows
  obtain ⟨_, shows⟩ := shows
  rw [shows]
  exact ⟨rfl, rfl, rfl⟩

/-- Three actions lead from the start of a data slot to the start of the next slot. -/
theorem OutputChannel.StartsSlot.next (h : o.StartsSlot i r) (hi : i < 16) :
    o.StartsSlot (i + 1) (outputAction (outputAction (outputAction r))) := by
  rw [h.enableSetAction hi.le]
  exact
    { st := if_neg hi.ne
      bit := by rw [BitVec.toNat_ofNat]; omega
      last := decide_eq_decide.mpr (by omega)
      data := h.data
      reverse := h.reverse
      enable := rfl }

/-- A restarted channel starts slot `i` after `3 * i` actions. -/
theorem OutputChannel.StartsSlot.iterate (h : o.StartsSlot 0 o) (hi : i ≤ 16) :
    o.StartsSlot i (outputAction^[3 * i] o) := by
  induction i with
  | zero => exact h
  | succ i ih =>
    rw [show 3 * (i + 1) = 3 * i + 1 + 1 + 1 by omega]
    simp only [Function.iterate_succ_apply']
    exact (ih (by omega)).next (by omega)

end

end Sys2Proof.Machine

/-! PROOFS. The OutputChannels: their commands, their update and a whole transmission (R85 to R88). -/

namespace Sys2Proof.Machine

/-- Settles O14: OSET by the unit its operand names. -/
theorem osetRestartsTheChannel : Obligations.OsetRestartsTheChannel := by
  intro s v
  have place : (0x01 : BitVec 8).setWidth 32 <<< 24 = ((0x01000000 : Nat) : CmdWord) := by decide
  refine ⟨fun c => ?encoding, fun k => ?unit, fun c hc => execOset_of_no_unit v (unitOf_of_ge hc)⟩
  case encoding => rw [encode_eq_or, Instr.op, place, Instr.idx, Instr.imm]
  case unit => exact execOset_of_unit (unitOf_ofNat (by omega) k)

/-- Settles O15: OREV by the unit its operand names; it has no operand word. -/
theorem orevTogglesAndRestarts : Obligations.OrevTogglesAndRestarts := by
  intro s
  have place : (0x02 : BitVec 8).setWidth 32 <<< 24 = 0x02000000#32 := by decide
  refine ⟨fun c => ?encoding, fun k => ?unit, fun c hc => execOrev_of_no_unit (unitOf_of_ge hc)⟩
  case encoding =>
    rw [encode_eq_or, Instr.op, place, Instr.idx, Instr.imm]
    exact BitVec.or_zero
  case unit => exact execOrev_of_unit (unitOf_ofNat (by omega) k)

/-- Settles O40: OUT.UPDATE waits, or takes the action of the channel's state. -/
theorem transmitterActsByItsState : Obligations.TransmitterActsByItsState := by
  intro s ch hr hv hl
  have passes := step_of_no_command hr hv hl
  have updated := step_out hr passes ch
  rw [portOutput_of_no_command hv] at updated
  obtain ⟨range, -⟩ := outputLegal_iff.mp ((State.legal_iff.mp hl).1 ch)
  refine ⟨_, passes, ?_⟩
  rw [updated]
  refine ⟨outputUpdate_idle, outputUpdate_waits, fun due pause => ?_, fun due dataSet => ?_,
    fun due enableSet => ?_⟩
  · rw [outputUpdate_acts (by simp [pause]) due, outputAction_pause pause]; rfl
  · rw [outputUpdate_acts (by simp [dataSet]) due, outputAction_dataSet dataSet]; rfl
  · rw [outputUpdate_acts (by simp [enableSet]) due, outputAction_enableSet enableSet range]; rfl

/-- Settles O47: under reset the inputs decide all; otherwise each unit is left at a function of its own registers,
the parameters and the inputs. -/
theorem channelsAndReceiverAreIndependent : Obligations.ChannelsAndReceiverAreIndependent := by
  intro s s' t t' cfg ports h h'
  cases hr : s.ports.rst with
  | true =>
    obtain rfl := eq_resetPass_of_step hr h
    obtain rfl := eq_resetPass_of_step (ports ▸ hr) h'
    simp [State.resetPass, ports]
  | false =>
    have hr' : s'.ports.rst = false := ports ▸ hr
    refine ⟨fun ch same => ?_, fun same => ?_, fun i same => ?_⟩
    · rw [step_out hr h, step_out hr' h', cfg, ports, same]
    · rw [step_inp hr h, step_inp hr' h', cfg, ports, same]
    · rw [step_btn hr h, step_btn hr' h', cfg, ports, same]

/-- Settles O41: each pass of the run is one action; slot `i` is the three actions from the start of slot `i`, and the
last three leave the flush slot. -/
theorem transmissionSendsEveryBitThenFlushes : Obligations.TransmissionSendsEveryBitThenFlushes := by
  intro s ch ps hs pause bit last hq due passes
  have shown : s.ShowsChannel ch (Four.get s.out ch) := ⟨_, rfl⟩
  obtain ⟨trace, t, runs, final⟩ := shown.runOn_due hs hq due
  have starts : (Four.get s.out ch).StartsSlot 0 (Four.get s.out ch) :=
    { st := pause, bit := congrArg BitVec.toNat bit, last := last, data := rfl, reverse := rfl, enable := rfl }
  refine ⟨fun i hi => ?slots, t, runs, ?final⟩
  case slots =>
    obtain ⟨a, hasA, showsA⟩ := trace (3 * i) (by omega)
    obtain ⟨b, hasB, showsB⟩ := trace (3 * i + 1) (by omega)
    obtain ⟨c, hasC, showsC⟩ := trace (3 * i + 2) (by omega)
    simp only [Function.iterate_succ_apply'] at showsA showsB showsC
    exact ⟨a, b, c, hasA, hasB, hasC, (starts.iterate hi).pins hi showsA showsB showsC⟩
  case final =>
    rw [passes, show 51 = 3 * 16 + 1 + 1 + 1 from rfl] at final
    simp only [Function.iterate_succ_apply'] at final
    exact (starts.iterate (by omega)).flushed final

end Sys2Proof.Machine

/-! SUPPORT. The receive machine: its actions, one equation per state, and its update in a pass (R95); the words that
the samples make up (R34). -/

namespace Sys2Proof.Machine

/-! ### The words being assembled (R34, R95 (e)) -/

/-- The sample comes in at bit 0 of the word shifted left. -/
theorem appendSample_eq_shift_or (t : Half) (pin : Bool) :
    appendSample t pin = (t <<< 1) ||| (BitVec.ofBool pin).setWidth 16 := by
  apply BitVec.eq_of_getLsbD_eq
  intro k hk
  rw [appendSample_bit _ _ hk, BitVec.getLsbD_or, BitVec.getLsbD_shiftLeft, BitVec.getLsbD_setWidth]
  by_cases newest : k = 0
  · simp [newest]
  · simp [newest, hk, BitVec.getLsbD_ofBool]

/-- The sample comes in at bit 15 of the word shifted right. -/
theorem appendMirrored_eq_shift_or (t : Half) (pin : Bool) :
    appendMirrored t pin = (t >>> 1) ||| ((BitVec.ofBool pin).setWidth 16 <<< 15) := by
  apply BitVec.eq_of_getLsbD_eq
  intro k hk
  rw [appendMirrored_bit _ _ hk, BitVec.getLsbD_or, BitVec.getLsbD_ushiftRight, BitVec.getLsbD_shiftLeft,
    BitVec.getLsbD_setWidth]
  by_cases newest : k = 15
  · simp [newest]
  · simp [newest, show k < 15 by omega, Nat.add_comm]

theorem wordChanged_eq (new old : Half) : wordChanged new old = decide (new ≠ old) := by
  rw [Bool.eq_iff_iff]
  simp [wordChanged]

/-- The `k` samples `b 0` to `b (k - 1)` stand in the low end of `w`, the newest in bit 0, and in the high end of `m`,
the newest in bit 15. -/
def HoldsSamples (b : Nat → Bool) (k : Nat) (w m : Half) : Prop :=
  ∀ j < k, w.getLsbD (k - 1 - j) = b j ∧ m.getLsbD (16 - k + j) = b j

theorem HoldsSamples.append {b : Nat → Bool} {k : Nat} {w m : Half} (h : HoldsSamples b k w m) (hk : k < 16) :
    HoldsSamples b (k + 1) (appendSample w (b k)) (appendMirrored m (b k)) := by
  intro j hj
  rw [appendSample_bit _ _ (by omega), appendMirrored_bit _ _ (by omega)]
  rcases Nat.lt_succ_iff_lt_or_eq.mp hj with older | rfl
  · obtain ⟨inWord, inMirror⟩ := h j older
    rw [if_neg (by omega), if_neg (by omega), show k + 1 - 1 - j - 1 = k - 1 - j by omega,
      show 16 - (k + 1) + j + 1 = 16 - k + j by omega]
    exact ⟨inWord, inMirror⟩
  · rw [if_pos (by omega), if_pos (by omega)]
    exact ⟨rfl, rfl⟩

/-! ### The actions (R95 (c) to (g)) -/

section
variable {i : InputChannel}

theorem inputAction_idle (pin : Bool) (h : i.st = .idle) :
    inputAction pin i = { i with loadPin := true, shiftPin := false, clockPin := false, st := .loadingData } := by
  rw [inputAction, h]

theorem inputAction_loadingData (pin : Bool) (h : i.st = .loadingData) :
    inputAction pin i = { i with loadPin := false, shiftPin := true, st := .serialShiftOff } := by
  rw [inputAction, h]

theorem inputAction_shiftClockOn (pin : Bool) (h : i.st = .shiftClockOn) :
    inputAction pin i = { i with clockPin := true, st := .serialShiftOff } := by
  rw [inputAction, h]

/-- Before the sixteenth sample. -/
theorem inputAction_counts (pin : Bool) (h : i.st = .serialShiftOff) (more : i.bitCount.toNat < 15) :
    inputAction pin i =
      { i with
        clockPin := false
        tempData := appendSample i.tempData pin
        tempMirrored := appendMirrored i.tempMirrored pin
        bitCount := i.bitCount + 1
        st := .shiftClockOn } := by
  have notLast : i.bitCount + 1 ≠ 16 := by bv_omega
  rw [inputAction, h]
  exact if_neg notLast

/-- At the sixteenth sample. -/
theorem inputAction_publishes (pin : Bool) (h : i.st = .serialShiftOff) (full : i.bitCount.toNat = 15) :
    inputAction pin i =
      { i with
        clockPin := false
        tempData := appendSample i.tempData pin
        tempMirrored := appendMirrored i.tempMirrored pin
        dataChanged := decide (appendSample i.tempData pin ≠ i.data)
        data := appendSample i.tempData pin
        dataMirrored := appendMirrored i.tempMirrored pin
        bitCount := 0
        st := .idle } := by
  have last : i.bitCount + 1 = 16 := by bv_omega
  rw [inputAction, h, ← wordChanged_eq]
  exact if_pos last

/-- Every sample is appended to both words, published or not. -/
theorem inputAction_appends (pin : Bool) (h : i.st = .serialShiftOff) :
    (inputAction pin i).tempData = appendSample i.tempData pin ∧
      (inputAction pin i).tempMirrored = appendMirrored i.tempMirrored pin := by
  rw [inputAction, h]
  dsimp only [inputSample]
  split_ifs <;> exact ⟨rfl, rfl⟩

/-- No action reads or writes the deadline. -/
theorem inputAction_withDeadline (pin : Bool) (i : InputChannel) (d : Tick) :
    inputAction pin { i with nextTick := d } = { inputAction pin i with nextTick := d } := by
  obtain ⟨st, _, _, _, _, _, _, _, _, _, _⟩ := i
  cases st with
  | serialShiftOff => dsimp only [inputAction, inputSample]; split_ifs <;> rfl
  | _ => rfl

end

/-! ### Passes without a command -/

theorem portInput_of_no_command {p : InPorts} (hv : p.cmdValid = false) (r : InputChannel) : portInput p r = r := by
  rw [portInput, hv]; rfl

/-- A legal state answers a pass with neither reset nor command in a legal state, with the receiver at its own
IN.UPDATE. -/
theorem step_answers_inp {s : State} (hr : s.ports.rst = false) (hv : s.ports.cmdValid = false)
    (hl : s.legal = true) :
    ∃ t, step s = .next t ∧ t.legal = true ∧
      t.inp = inputUpdate s.cfg.inputTickInterval s.ports.tick s.ports.inData s.inp := by
  obtain ⟨t, answers, legal⟩ := legalStatesAlwaysStep s (.inr hl)
  have updated := step_inp hr answers
  rw [portInput_of_no_command hv] at updated
  exact ⟨t, answers, legal, updated⟩

end Sys2Proof.Machine

/-! SUPPORT. One receive cycle: a quiet run of due passes is a run of actions, and from the first sample on, two
actions take a sample and raise the clock for the next (R95, S3). -/

namespace Sys2Proof.Machine

/-! ### Runs of due passes -/

/-- The receiver after `n` actions, action `m` of them finding the data-in pin at `pin m`. -/
def inputActions (pin : Nat → Bool) (i : InputChannel) : Nat → InputChannel
  | 0 => i
  | n + 1 => inputAction (pin n) (inputActions pin i n)

theorem inputActions_succ (pin : Nat → Bool) (i : InputChannel) (n : Nat) :
    inputActions pin i (n + 1) = inputAction (pin n) (inputActions pin i n) := rfl

/-- The first action taken off the front. -/
theorem inputActions_succ_front (pin : Nat → Bool) (i : InputChannel) (n : Nat) :
    inputActions pin i (n + 1) = inputActions (fun m => pin (m + 1)) (inputAction (pin 0) i) n := by
  induction n with
  | zero => rfl
  | succ n ih => rw [inputActions_succ, ih, inputActions_succ]

/-- The data-in level of pass `n` of a run. -/
def inDataAt (ps : List InPorts) (n : Nat) : Bool := ps[n]?.any InPorts.inData

theorem inDataAt_of_getElem? {ps : List InPorts} {n : Nat} {p : InPorts} (h : ps[n]? = some p) :
    inDataAt ps n = p.inData := by
  rw [inDataAt, h]; rfl

/-- The registers of the receiver in `t` are `i`, but for the deadline. -/
def State.ShowsReceiver (i : InputChannel) (t : State) : Prop :=
  ∃ d, t.inp = { i with nextTick := d }

section
variable {s : State} {i : InputChannel} {p : InPorts} {ps : List InPorts}

/-- A quiet due pass is one action. -/
theorem State.ShowsReceiver.passOn_due (hs : s.legal = true) (hi : s.ShowsReceiver i) (hq : quiet p = true)
    (due : s.inp.nextTick < p.tick) :
    ∃ t, passOn p s = .next t ∧ t.legal = true ∧ t.ShowsReceiver (inputAction p.inData i) := by
  obtain ⟨hr, hv⟩ := quiet_iff.mp hq
  obtain ⟨t, answers, legal, updated⟩ := step_answers_inp (s := { s with ports := p }) hr hv hs
  obtain ⟨e, shown⟩ := hi
  rw [inputUpdate_acts due, shown, inputAction_withDeadline] at updated
  exact ⟨t, answers, legal, _, updated⟩

/-- Quiet due passes are as many actions. -/
theorem State.ShowsReceiver.runOn_due (hs : s.legal = true) (hi : s.ShowsReceiver i)
    (hq : ∀ p ∈ ps, quiet p = true) (due : dueEvery (fun u => u.inp.nextTick) ps s = true) :
    ∃ t, runOn ps s = .next t ∧ t.ShowsReceiver (inputActions (inDataAt ps) i ps.length) := by
  induction ps generalizing s i with
  | nil => exact ⟨s, rfl, hi⟩
  | cons p ps ih =>
    obtain ⟨quietP, quietRest⟩ := List.forall_mem_cons.mp hq
    obtain ⟨dueP, dueRest⟩ := dueEvery_cons due
    obtain ⟨t, answers, legal, shown⟩ := hi.passOn_due hs quietP dueP
    obtain ⟨u, runs, final⟩ := ih legal shown quietRest (dueRest t answers)
    refine ⟨u, runOn_cons.mpr ⟨t, answers, runs⟩, ?_⟩
    rw [List.length_cons, inputActions_succ_front]
    exact final

end

/-! ### Samples -/

/-- `r` is the receiver about to take sample `k` of the cycle that started from `i`; sample `j` is taken by action
`2 * j + 2`. -/
structure InputChannel.AwaitsSample (i : InputChannel) (pin : Nat → Bool) (k : Nat) (r : InputChannel) : Prop where
  st : r.st = .serialShiftOff
  count : r.bitCount.toNat = k
  data : r.data = i.data
  held : HoldsSamples (fun j => pin (2 * j + 2)) k r.tempData r.tempMirrored

section
variable {i r : InputChannel} {pin : Nat → Bool} {k : Nat}

/-- The Idle and the LoadingData action lead to the first sample. -/
theorem InputChannel.awaitsSample_zero (idle : i.st = .idle) (count : i.bitCount = 0) :
    i.AwaitsSample pin 0 (inputActions pin i 2) := by
  rw [inputActions_succ, inputActions_succ, inputActions, inputAction_idle _ idle, inputAction_loadingData _ rfl]
  exact { st := rfl, count := congrArg BitVec.toNat count, data := rfl, held := nofun }

/-- A sample before the sixteenth and the rising clock after it lead to the next sample. -/
theorem InputChannel.AwaitsSample.next (h : i.AwaitsSample pin k r) (hk : k < 15) (unread : Bool) :
    i.AwaitsSample pin (k + 1) (inputAction unread (inputAction (pin (2 * k + 2)) r)) := by
  rw [inputAction_counts _ h.st (h.count.trans_lt hk), inputAction_shiftClockOn _ rfl]
  have counted : (r.bitCount + 1).toNat = k + 1 := by
    have := h.count
    bv_omega
  exact { st := rfl, count := counted, data := h.data, held := h.held.append (by omega) }

theorem InputChannel.awaitsSample_inputActions (idle : i.st = .idle) (count : i.bitCount = 0) (hk : k ≤ 15) :
    i.AwaitsSample pin k (inputActions pin i (2 * k + 2)) := by
  induction k with
  | zero => exact awaitsSample_zero idle count
  | succ k ih => exact (ih (by omega)).next (by omega) (pin (2 * k + 3))

/-- The last sample publishes all sixteen, in both orders (R95 (f), R34). -/
theorem InputChannel.AwaitsSample.published {t : State} (h : i.AwaitsSample pin 15 r)
    (shows : t.ShowsReceiver (inputAction (pin 32) r)) :
    t.inp.st = .idle ∧ t.inp.bitCount = 0 ∧
      (∀ k < 16, t.inp.data.getLsbD (15 - k) = pin (2 * k + 2) ∧ t.inp.dataMirrored.getLsbD k = pin (2 * k + 2)) ∧
      (t.inp.dataChanged = true ↔ t.inp.data ≠ i.data) := by
  have held := h.held.append (by omega)
  rw [inputAction_publishes _ h.st h.count, h.data] at shows
  obtain ⟨_, shows⟩ := shows
  rw [shows]
  refine ⟨rfl, rfl, fun k hk => ?bits, decide_eq_true_iff⟩
  case bits => simpa using held k hk

end

end Sys2Proof.Machine

/-! PROOFS. The InputChannel: IACK, its update and a whole receive cycle (R95, R96). -/

namespace Sys2Proof.Machine

/-- Settles O23: IACK's command part writes the flag and `cmd_ok`, and IN.UPDATE runs on what it leaves. -/
theorem iackClearsTheFlag : Obligations.IackClearsTheFlag := by
  intro s
  have decodes : decode 0x0A000000 = .ok .iack := by decide
  refine ⟨decodes, rfl, fun hr hv hl hw => ?_⟩
  obtain ⟨t, answers, -⟩ := legalStatesAlwaysStep s (.inr hl)
  have cleared : portInput s.ports s.inp = { s.inp with dataChanged := false } := by
    rw [portInput, if_pos hv, hw, decodes]; rfl
  exact ⟨t, answers, (step_inp hr answers).trans (by rw [cleared])⟩

/-- Settles O43: IN.UPDATE waits, or takes the action of the receiver's state. -/
theorem receiverActsByItsState : Obligations.ReceiverActsByItsState := by
  intro s hr hv hl
  obtain ⟨t, answers, -, updated⟩ := step_answers_inp hr hv hl
  refine ⟨t, answers, fun waits => updated.trans (inputUpdate_waits waits), fun due => ?_⟩
  rw [inputUpdate_acts due] at updated
  rw [updated]
  refine ⟨rfl, fun idle => ?_, fun loadingData => ?_, fun shiftClockOn => ?_, fun serialShiftOff => ?_⟩
  · rw [inputAction_idle _ idle]
  · rw [inputAction_loadingData _ loadingData]
  · rw [inputAction_shiftClockOn _ shiftClockOn]
  · obtain ⟨word, mirrored⟩ := inputAction_appends s.ports.inData serialShiftOff
    refine ⟨word.trans (appendSample_eq_shift_or _ _), mirrored.trans (appendMirrored_eq_shift_or _ _),
      fun more => ?_, fun full => ?_⟩
    · rw [inputAction_counts _ serialShiftOff more]
    · rw [inputAction_publishes _ serialShiftOff full]

/-- Settles O44: each pass of the run is one action; two actions reach the first sample, thirty more the sixteenth, and
the last publishes. -/
theorem receiverPublishesTheSampledWord : Obligations.ReceiverPublishesTheSampledWord := by
  intro s ps hs idle count hq due passes
  have shown : s.ShowsReceiver s.inp := ⟨_, rfl⟩
  obtain ⟨t, runs, final⟩ := shown.runOn_due hs hq due
  rw [passes, inputActions_succ] at final
  obtain ⟨rest, noSample, bits, changed⟩ :=
    (InputChannel.awaitsSample_inputActions idle count (Nat.le_refl 15)).published final
  refine ⟨t, runs, rest, noSample, fun k hk p hp => ?_, changed⟩
  rw [← inDataAt_of_getElem? hp]
  exact bits k hk

end Sys2Proof.Machine

/-! SUPPORT. The sequencer commands (R110 to R112); the sequencer and the Clocks in a pass under a Program (R107 to
R109). -/

namespace Sys2Proof

/-- The word of a command that addresses no unit (R45). -/
theorem encode_eq_or_of_no_unit {i : Instr} (h : i.idx = 0) :
    encode i = (i.op.setWidth 32 <<< 24) ||| i.imm.setWidth 32 := by
  rw [encode_eq_or, h]
  exact congrArg (· ||| _) BitVec.or_zero

end Sys2Proof

namespace Sys2Proof.Machine

section
variable {s t u : State} {P : ProgEntry} {now : Tick} {q : ProgramControl} {c : Two Clock}

/-! ### The sequencer commands (R110 to R112) -/

theorem execPsel_of_entry {n : BitVec 16} (hP : progRead s.cfg n.toNat = some P) :
    execPsel n s =
      .next (s.accept.setSeq
        { s.seq with
          curProg := n.setWidth 8, step := 0, nextTick := 0, mode := .manual,
          ticksPerStep := seqTicks s.cfg.tickFreq s.seq.freq P }) := by
  rw [execPsel, hP]

theorem execPfreq_of_entry {f : BitVec 16} (hf : f ≠ 0) (hP : s.activeProgram = some P) :
    execPfreq f s =
      .next (s.accept.setSeq { s.seq with freq := f, ticksPerStep := seqTicks s.cfg.tickFreq f P }) := by
  rw [execPfreq, if_neg hf, hP]

theorem toggleSeqMode_eq (m : SeqMode) : toggleSeqMode m = if m = .manual then .auto else .manual := by
  cases m <;> rfl

/-- `t` has the Program, mode, step and deadline of `s`: what decides where the sequencer stands. -/
structure State.SamePosition (s t : State) : Prop where
  curProg : t.seq.curProg = s.seq.curProg
  mode : t.seq.mode = s.seq.mode
  step : t.seq.step = s.seq.step
  nextTick : t.seq.nextTick = s.seq.nextTick

theorem State.SamePosition.of_seq_eq (h : t.seq = s.seq) : s.SamePosition t := by
  constructor <;> rw [h]

theorem execOset_seq {c : BitVec 8} {v : BitVec 16} (h : execOset c v s = .next t) : t.seq = s.seq := by
  cases h
  split <;> rfl

theorem execOrev_seq {c : BitVec 8} (h : execOrev c s = .next t) : t.seq = s.seq := by
  cases h
  split <;> rfl

theorem execCfreq_seq {c : BitVec 8} {f : BitVec 16} (h : execCfreq c f s = .next t) : t.seq = s.seq := by
  cases h
  split
  next => split <;> rfl
  next => rfl

theorem execCauto_seq {c : BitVec 8} (h : execCauto c s = .next t) : t.seq = s.seq := by
  cases h
  split <;> rfl

theorem State.syncClocks_seq (s : State) (deadline : Tick) : (s.syncClocks deadline).seq = s.seq := by
  unfold State.syncClocks
  split <;> rfl

/-- PFREQ writes the frequency and the divider, or nothing of the sequencer (R111). -/
theorem State.SamePosition.execPfreq {f : BitVec 16} (h : execPfreq f s = .next t) : s.SamePosition t := by
  unfold Machine.execPfreq at h
  split at h
  next => cases h; exact of_seq_eq rfl
  next =>
    split at h
    next => cases h; exact ⟨rfl, rfl, rfl, rfl⟩
    next => cases h

/-- Only an accepted PSEL and PAUTO move the sequencer (R110, R112, R113). -/
theorem exec_samePosition {i : Instr} (h : exec i s = .next t) :
    (∃ n, i = .psel n ∧ n.toNat < progCount s.cfg) ∨ i = .pauto ∨ s.SamePosition t := by
  cases i with
  | psel n =>
    cases hP : progRead s.cfg n.toNat with
    | some P => exact .inl ⟨n, rfl, exists_progRead_iff.mp ⟨P, hP⟩⟩
    | none =>
      cases (execPsel_of_no_entry hP).symm.trans h
      exact .inr (.inr (.of_seq_eq rfl))
  | pauto => exact .inr (.inl rfl)
  | pfreq f => exact .inr (.inr (.execPfreq h))
  | oset c v => exact .inr (.inr (.of_seq_eq (execOset_seq h)))
  | orev c => exact .inr (.inr (.of_seq_eq (execOrev_seq h)))
  | cfreq c f => exact .inr (.inr (.of_seq_eq (execCfreq_seq h)))
  | cauto c => exact .inr (.inr (.of_seq_eq (execCauto_seq h)))
  | csync => cases h; exact .inr (.inr (.of_seq_eq (State.syncClocks_seq s.accept _)))
  | csynco => cases h; exact .inr (.inr (.of_seq_eq (State.syncClocks_seq s.accept _)))
  | nop => cases h; exact .inr (.inr (.of_seq_eq rfl))
  | iack => cases h; exact .inr (.inr (.of_seq_eq rfl))

/-- The command part of a pass moves the sequencer by an accepted PSEL and by PAUTO alone (R61, R64, R113). -/
theorem State.takeCommand_samePosition (h : s.takeCommand = .next t) :
    (s.ports.cmdValid = true ∧ ∃ n, decode s.ports.cmd = .ok (.psel n) ∧ n.toNat < progCount s.cfg) ∨
      (s.ports.cmdValid = true ∧ decode s.ports.cmd = .ok .pauto) ∨ s.SamePosition t := by
  cases hv : s.ports.cmdValid with
  | false =>
    cases (State.takeCommand_of_no_command hv).symm.trans h
    exact .inr (.inr (.of_seq_eq rfl))
  | true =>
    cases hd : decode s.ports.cmd with
    | error e =>
      cases (State.takeCommand_of_error hv hd).symm.trans h
      exact .inr (.inr (.of_seq_eq rfl))
    | ok i =>
      rcases exec_samePosition ((State.takeCommand_of_decode hv hd).symm.trans h) with
        ⟨n, rfl, inside⟩ | rfl | same
      · exact .inl ⟨rfl, n, rfl, inside⟩
      · exact .inr (.inl ⟨rfl, rfl⟩)
      · exact .inr (.inr same)

/-! ### The two paths of the sequencer (R107 to R109) -/

/-- The Clocks with other line levels: what a push makes of them (R106). -/
def withLines (clk : Two Clock) (levels : Bool × Bool) : Two Clock :=
  ⟨{ clk.u0 with state := levels.1 }, { clk.u1 with state := levels.2 }⟩

/-- `t` is where the Manual path leads, in a pass at tick `now` with the Buttons of `t`, from the sequencer `q` and
the Clocks `c` (R108). -/
structure ManualPath (P : ProgEntry) (now : Tick) (q : ProgramControl) (c : Two Clock) (t : State) : Prop where
  seq : t.seq =
    { q with
      mode := if risingEdge t.btn.u0 then .oneShot else .manual
      nextTick := if risingEdge t.btn.u0 then now else q.nextTick
      step := if risingEdge t.btn.u1 then nextStep q.step P else q.step }
  clk : t.clk = if risingEdge t.btn.u1 then withLines c (signals P t.seq.step) else c

/-- `t` is one timed step of `P` after the sequencer `q` and the Clocks `c` (R109). -/
structure TimedStep (P : ProgEntry) (q : ProgramControl) (c : Two Clock) (t : State) : Prop where
  seq : t.seq =
    { q with
      mode := modeAfterStep q.mode (nextStep q.step P)
      step := nextStep q.step P
      nextTick := q.nextTick + q.ticksPerStep }
  clk : t.clk = withLines c (signals P t.seq.step)

/-- What the updates of a pass at tick `now` make of the sequencer `q` and the Clocks `c` under the Program `P` when
they end in `t` (R107). -/
structure ProgramUpdated (P : ProgEntry) (now : Tick) (q : ProgramControl) (c : Two Clock) (t : State) : Prop where
  manual : q.mode = .manual → ManualPath P now q c t
  timed : q.mode ≠ .manual → q.nextTick < now → TimedStep P q c t
  waits : q.mode ≠ .manual → ¬ q.nextTick < now → t.seq = q ∧ t.clk = c

theorem State.seqUpdate_of_manual (P : ProgEntry) (manual : s.seq.mode = .manual) :
    s.seqUpdate P = s.seqManual P := by
  rw [State.seqUpdate, manual]

theorem State.seqUpdate_of_timed (P : ProgEntry) (timed : s.seq.mode ≠ .manual) : s.seqUpdate P = s.seqTimed P := by
  unfold State.seqUpdate
  split
  next manual => exact absurd manual timed
  next => rfl
  next => rfl

/-- Under a Program the line part of a pass is the sequencer's update (R107). -/
theorem State.updateLines_of_program (program : s.seq.curProg ≠ 0)
    (hP : progRead s.cfg s.seq.curProg.toNat = some P) : s.updateLines = s.seqUpdate P := by
  have active : s.activeProgram = some P := hP
  rw [State.updateLines, if_neg program, active]

/-- A state with the Buttons of `s` and with what SEQ.UPDATE makes of its sequencer and Clocks. -/
theorem ProgramUpdated.of_seqUpdate (btn : t.btn = s.btn) (seq : t.seq = (s.seqUpdate P).seq)
    (clk : t.clk = (s.seqUpdate P).clk) : ProgramUpdated P s.ports.tick s.seq s.clk t := by
  refine ⟨fun manual => ?_, fun timed due => ?_, fun timed waits => ?_⟩
  · rw [State.seqUpdate_of_manual P manual, State.seqManual_eq, ← btn, manual] at seq clk
    refine ⟨seq, ?_⟩
    rw [clk, seq]
    split <;> rfl
  · rw [State.seqUpdate_of_timed P timed, State.seqTimed_steps due] at seq clk
    exact ⟨seq, by rw [clk, seq]; rfl⟩
  · rw [State.seqUpdate_of_timed P timed, State.seqTimed_waits waits] at seq clk
    exact ⟨seq, clk⟩

/-- A pass without reset gives a next state from legal states only (I11). -/
theorem legal_of_step (hr : s.ports.rst = false) (h : step s = .next t) : s.legal = true := by
  cases legal : s.legal with
  | true => rfl
  | false => cases (step_of_not_legal hr legal).symm.trans h

/-- A pass whose command leaves a Program active runs the sequencer from what the command left of it. -/
theorem step_updates_program (hr : s.ports.rst = false) (taken : s.takeCommand = .next u)
    (program : u.seq.curProg ≠ 0) (hP : progRead u.cfg u.seq.curProg.toNat = some P) (h : step s = .next t) :
    ProgramUpdated P s.ports.tick u.seq u.clk t := by
  rcases step_cases h with ⟨reset, -⟩ | ⟨-, -, v, taken', rfl⟩
  · rw [hr] at reset; cases reset
  · cases taken.symm.trans taken'
    have lines : u.afterButtons.updateLines = u.afterButtons.seqUpdate P :=
      State.updateLines_of_program (s := u.afterButtons) program hP
    rw [← (State.CommandFrame.takeCommand taken).ports]
    refine ProgramUpdated.of_seqUpdate (s := u.afterButtons) ?_ ?_ ?_
    · rw [State.nextEdge_btn, State.updates_eq, State.updateLines_btn]
    · rw [State.nextEdge_seq, State.updates_seq, lines]
    · rw [State.nextEdge_clk, State.updates_clk, lines]

/-- A quiet pass under a Program runs the sequencer from where it finds it. -/
theorem passOn_updates_program {p : InPorts} (hq : quiet p = true) (h : passOn p s = .next t)
    (program : s.seq.curProg ≠ 0) (hP : progRead s.cfg s.seq.curProg.toNat = some P) :
    ProgramUpdated P p.tick s.seq s.clk t := by
  obtain ⟨hr, hv⟩ := quiet_iff.mp hq
  have taken : State.takeCommand { s with ports := p } = .next { s with ports := p } :=
    State.takeCommand_of_no_command hv
  exact step_updates_program hr taken program hP h

/-! ### What the two paths change -/

/-- Leaving Manual mode is button 0's doing, and it re-arms the deadline (R108 (a)). -/
theorem ManualPath.mode_changes (h : ManualPath P now q c t) (changed : t.seq.mode ≠ .manual) :
    t.seq.mode = .oneShot ∧ t.seq.nextTick = now ∧ t.btn.u0.stateChanged = true ∧ t.btn.u0.state = true := by
  rw [h.seq] at changed ⊢
  have edge : risingEdge t.btn.u0 = true := by
    by_contra noEdge
    exact changed (if_neg noEdge)
  obtain ⟨flag, level⟩ : t.btn.u0.stateChanged = true ∧ t.btn.u0.state = true := Bool.and_eq_true_iff.mp edge
  exact ⟨if_pos edge, if_pos edge, flag, level⟩

/-- A timed step changes the mode only at a OneShot's wrap to step 0 (R109). -/
theorem TimedStep.mode_changes (h : TimedStep P q c t) (timed : q.mode ≠ .manual)
    (changed : t.seq.mode ≠ q.mode) : q.mode = .oneShot ∧ t.seq.mode = .manual ∧ t.seq.step = 0 := by
  rw [h.seq] at changed ⊢
  cases hm : q.mode with
  | manual => exact absurd hm timed
  | auto => exact absurd (by simp only [hm, modeAfterStep]) changed
  | oneShot =>
    simp only [hm, modeAfterStep] at changed ⊢
    have wraps : nextStep q.step P = 0 := by
      by_contra runs
      exact changed (if_neg runs)
    exact ⟨trivial, if_pos wraps, wraps⟩

theorem nextStep_eq_zero_iff (step : BitVec 8) (P : ProgEntry) :
    nextStep step P = 0 ↔ (step.toNat + 1) % P.len.toNat = 0 := by
  rw [← nextStep_toNat, ← BitVec.toNat_inj]; rfl

/-- The mode after a timed step, with the wrap of R109 written out. -/
theorem modeAfterStep_nextStep (m : SeqMode) (step : BitVec 8) (P : ProgEntry) :
    modeAfterStep m (nextStep step P) =
      if m = .oneShot ∧ (step.toNat + 1) % P.len.toNat = 0 then .manual else m := by
  cases m with
  | manual => exact (if_neg (by simp)).symm
  | auto => exact (if_neg (by simp)).symm
  | oneShot => simp only [modeAfterStep, nextStep_eq_zero_iff, true_and]

/-- `t` has the Program of `s` and its Clocks but for the two line levels. -/
structure State.ClocksBypassed (s t : State) : Prop where
  curProg : t.seq.curProg = s.seq.curProg
  clk : ∃ levels, t.clk = withLines s.clk levels

theorem State.ClocksBypassed.of_eq (prog : t.seq.curProg = s.seq.curProg) (clk : t.clk = s.clk) :
    s.ClocksBypassed t :=
  ⟨prog, (s.clk.u0.state, s.clk.u1.state), clk⟩

theorem State.ClocksBypassed.trans (h : s.ClocksBypassed t) (h' : t.ClocksBypassed u) : s.ClocksBypassed u := by
  obtain ⟨prog, levels, clk⟩ := h
  obtain ⟨prog', levels', clk'⟩ := h'
  exact ⟨prog'.trans prog, levels', by rw [clk', clk]; rfl⟩

/-- Neither path of the sequencer writes more of the Clocks than their lines (R107). -/
theorem ProgramUpdated.clocksBypassed (h : ProgramUpdated P now s.seq s.clk t) :
    s.ClocksBypassed t := by
  obtain ⟨manual, timed, waits⟩ := h
  by_cases m : s.seq.mode = .manual
  · obtain ⟨seq, clk⟩ := manual m
    by_cases edge : risingEdge t.btn.u1 = true
    · exact ⟨by rw [seq], _, clk.trans (if_pos edge)⟩
    · exact .of_eq (by rw [seq]) (clk.trans (if_neg edge))
  · by_cases due : s.seq.nextTick < now
    · obtain ⟨seq, clk⟩ := timed m due
      exact ⟨by rw [seq], _, clk⟩
    · obtain ⟨seq, clk⟩ := waits m due
      exact .of_eq (by rw [seq]) clk

end

end Sys2Proof.Machine

/-! SUPPORT. Runs of the sequencer in its timed modes: a quiet pass that finds the deadline passed is one step of the
Program (R109, S5). -/

namespace Sys2Proof.Machine

/-- `s` is a legal state at step `k` of the Program `P`, in mode `m`. -/
structure State.StandsAt (P : ProgEntry) (m : SeqMode) (k : Nat) (s : State) : Prop where
  legal : s.legal = true
  program : s.seq.curProg ≠ 0
  entry : progRead s.cfg s.seq.curProg.toNat = some P
  mode : s.seq.mode = m
  step : s.seq.step.toNat = k

/-- `s` stands at step `k` of `P` with that step's signals on the lines. -/
structure State.PlaysAt (P : ProgEntry) (m : SeqMode) (k : Nat) (s : State) : Prop
    extends State.StandsAt P m k s where
  lines : (s.clk.u0.state, s.clk.u1.state) = signals P s.seq.step

section
variable {s : State} {P : ProgEntry} {m : SeqMode} {k : Nat} {p : InPorts} {ps : List InPorts}

theorem State.StandsAt.inside (hs : s.StandsAt P m k) : k < P.len.toNat := by
  obtain ⟨-, -, seq⟩ := State.legal_iff.mp hs.legal
  obtain ⟨Q, hQ, inside⟩ := seqLegal_iff.mp seq
  cases hs.entry.symm.trans hQ
  exact hs.step ▸ inside

/-- A quiet due pass in a timed mode plays the next step. -/
theorem State.StandsAt.passOn_due (hs : s.StandsAt P m k) (timed : m ≠ .manual) (hq : quiet p = true)
    (due : s.seq.nextTick < p.tick) :
    ∃ t, passOn p s = .next t ∧
      t.PlaysAt P (if m = .oneShot ∧ (k + 1) % P.len.toNat = 0 then .manual else m) ((k + 1) % P.len.toNat) := by
  obtain ⟨legal, program, entry, rfl, rfl⟩ := hs
  obtain ⟨t, answers, legal'⟩ := legalStatesAlwaysStep { s with ports := p } (.inr legal)
  obtain ⟨seq, clk⟩ := (passOn_updates_program hq answers program entry).timed timed due
  have prog : t.seq.curProg = s.seq.curProg := by rw [seq]
  refine ⟨t, answers, ?_⟩
  exact
    { legal := legal'
      program := prog ▸ program
      entry := by rw [passOn_cfg answers, prog, entry]
      mode := by rw [seq, ← modeAfterStep_nextStep]
      step := by rw [seq, ← nextStep_toNat]
      lines := by rw [clk]; rfl }

/-- `n` quiet due passes in Auto mode are `n` steps modulo `len`. -/
theorem State.PlaysAt.runOn_auto (hs : s.PlaysAt P .auto k) (hq : ∀ p ∈ ps, quiet p = true)
    (due : dueEvery (fun u => u.seq.nextTick) ps s = true) :
    ∃ t, runOn ps s = .next t ∧ t.PlaysAt P .auto ((k + ps.length) % P.len.toNat) := by
  induction ps generalizing s k with
  | nil => exact ⟨s, rfl, by rwa [List.length_nil, Nat.add_zero, Nat.mod_eq_of_lt hs.inside]⟩
  | cons p ps ih =>
    obtain ⟨quietP, quietRest⟩ := List.forall_mem_cons.mp hq
    obtain ⟨dueP, dueRest⟩ := dueEvery_cons due
    obtain ⟨t, answers, plays⟩ := hs.toStandsAt.passOn_due nofun quietP dueP
    obtain ⟨u, runs, final⟩ := ih plays quietRest (dueRest t answers)
    refine ⟨u, runOn_cons.mpr ⟨t, answers, runs⟩, ?_⟩
    rwa [Nat.mod_add_mod, Nat.add_assoc, Nat.add_comm 1] at final

/-- `len - k` quiet due passes from step `k` of a OneShot play the steps `k + 1 ..` and end in Manual at step 0. -/
theorem State.StandsAt.runOn_oneShot (hs : s.StandsAt P .oneShot k) (hq : ∀ p ∈ ps, quiet p = true)
    (due : dueEvery (fun u => u.seq.nextTick) ps s = true) (passes : ps.length = P.len.toNat - k) :
    (∃ t, runOn ps s = .next t ∧ t.PlaysAt P .manual 0) ∧
      ∀ j u, j + 1 < ps.length → (traceOn ps s)[j]? = some u → u.PlaysAt P .oneShot (k + j + 1) := by
  have inside := hs.inside
  induction ps generalizing s k with
  | nil => rw [List.length_nil] at passes; omega
  | cons p ps ih =>
    obtain ⟨quietP, quietRest⟩ := List.forall_mem_cons.mp hq
    obtain ⟨dueP, dueRest⟩ := dueEvery_cons due
    obtain ⟨t, answers, plays⟩ := hs.passOn_due nofun quietP dueP
    rw [List.length_cons] at passes
    by_cases wraps : k + 1 = P.len.toNat
    · obtain rfl : ps = [] := List.eq_nil_of_length_eq_zero (by omega)
      rw [wraps, Nat.mod_self, if_pos ⟨rfl, rfl⟩] at plays
      exact ⟨⟨t, runOn_cons.mpr ⟨t, answers, rfl⟩, plays⟩, fun j u hj => absurd hj (by simp)⟩
    · rw [Nat.mod_eq_of_lt (by omega), if_neg (by simp)] at plays
      obtain ⟨⟨v, runs, final⟩, trace⟩ :=
        ih plays.toStandsAt quietRest (dueRest t answers) (by omega) plays.inside
      refine ⟨⟨v, runOn_cons.mpr ⟨t, answers, runs⟩, final⟩, fun j u hj hu => ?_⟩
      rw [traceOn_cons_of_next answers] at hu
      cases j with
      | zero => cases hu; exact plays
      | succ j =>
        have later := trace j u (Nat.lt_of_succ_lt_succ hj) hu
        rwa [show k + 1 + j + 1 = k + (j + 1) + 1 by omega] at later

end

end Sys2Proof.Machine

/-! PROOFS. The sequencer: its commands, its signals and the two paths of its update (R105 to R112). -/

namespace Sys2Proof.Machine

/-- Settles O16: PSEL by the entry its index names; an index inside the table fits the register (D34). -/
theorem pselSelectsOrRefuses : Obligations.PselSelectsOrRefuses := by
  intro s n
  have place : (0x03 : BitVec 8).setWidth 32 <<< 24 = (0x03000000 : CmdWord) := by decide
  refine ⟨?encoding, fun inside => ?selects, fun outside => execPsel_of_no_entry (progRead_eq_none.mpr outside)⟩
  case encoding => rw [encode_eq_or_of_no_unit rfl, Instr.op, place, Instr.imm]
  case selects =>
    obtain ⟨P, hP⟩ := exists_progRead_iff.mpr inside
    rw [BitVec.ofNat_toNat]
    exact ⟨P, hP, execPsel_of_entry hP, setWidth_toNat_of_progRead hP⟩

/-- Settles O18: PFREQ by the active entry. -/
theorem pfreqSetsTheStepDivider : Obligations.PfreqSetsTheStepDivider := by
  intro s f
  have place : (0x05 : BitVec 8).setWidth 32 <<< 24 = (0x05000000 : CmdWord) := by decide
  refine ⟨?encoding, fun hf P hP => execPfreq_of_entry hf hP, execPfreq_zero⟩
  rw [encode_eq_or_of_no_unit rfl, Instr.op, place, Instr.imm]

/-- Settles O22: PAUTO's new mode, case by case. -/
theorem pautoTogglesTheSequencerMode : Obligations.PautoTogglesTheSequencerMode := by
  intro s
  rw [← toggleSeqMode_eq]
  exact ⟨by decide, rfl⟩

/-- Settles O33: step `s` reads bit `3 - s` of each pattern. -/
theorem signalsOfTheWorkedExample : Obligations.SignalsOfTheWorkedExample := by
  intro P len seq0 seq1
  simp only [signals, len, seq0, seq1]
  decide

/-- Settles O35: the Manual path from the state at the start of the pass. -/
theorem manualPathFollowsTheButtons : Obligations.ManualPathFollowsTheButtons := by
  intro s P hr hv hl program hP manual
  have passes := step_of_no_command hr hv hl
  obtain ⟨seq, clk⟩ :=
    (step_updates_program hr (State.takeCommand_of_no_command hv) program hP passes).manual manual
  exact ⟨_, passes, seq, clk⟩

/-- Settles O36: the timed path from the state at the start of the pass. -/
theorem timedPathSteps : Obligations.TimedPathSteps := by
  intro s P hr hv hl program hP timed
  have passes := step_of_no_command hr hv hl
  have updated := step_updates_program hr (State.takeCommand_of_no_command hv) program hP passes
  refine ⟨_, passes, fun due => ?_, updated.waits timed⟩
  obtain ⟨seq, clk⟩ := updated.timed timed due
  rw [← modeAfterStep_nextStep]
  exact ⟨seq, clk⟩

end Sys2Proof.Machine

/-! PROOFS. The sequencer over passes and runs: what changes its mode, what a Program leaves of the Clocks, and the
runs of OneShot and Auto (R107, R109, R113). -/

namespace Sys2Proof.Machine

/-- Settles O29: every quiet pass under a Program writes the lines alone of the Clocks. -/
theorem clocksAreBypassedUnderAProgram : Obligations.ClocksAreBypassedUnderAProgram := by
  intro ps s t i program hq h
  obtain ⟨prog, levels, clk⟩ : s.ClocksBypassed t := by
    refine runOn_keeps_of_mem (P := s.ClocksBypassed) (fun p hp u v hv hu => hu.trans ?_) h (.of_eq rfl rfl)
    obtain ⟨hr, -⟩ := quiet_iff.mp (hq p hp)
    obtain ⟨P, hP⟩ := State.activeProgram_of_legal (legal_of_step (s := { u with ports := p }) hr hv)
    exact (passOn_updates_program (hq p hp) hv (hu.curProg ▸ program) hP).clocksBypassed
  rw [clk]
  fin_cases i <;> exact ⟨rfl, rfl, rfl, rfl, prog⟩

/-- Settles O37: a OneShot plays its steps until the wrap. -/
theorem oneShotEndsAtTheWrap : Obligations.OneShotEndsAtTheWrap := by
  intro s P ps hl program hP oneShot hq due passes
  have stands : s.StandsAt P .oneShot s.seq.step.toNat := ⟨hl, program, hP, oneShot, rfl⟩
  obtain ⟨⟨t, runs, final⟩, trace⟩ := stands.runOn_oneShot hq due passes
  have atStart : t.seq.step = 0 := BitVec.eq_of_toNat_eq final.step
  refine ⟨⟨t, runs, final.mode, atStart, atStart ▸ final.lines⟩, fun j u hj hu => ?_⟩
  have plays := trace j u hj hu
  exact ⟨plays.mode, plays.step, plays.lines⟩

/-- Settles O38: the first pass puts a step on the lines, and every later pass moves on from there. -/
theorem autoLoopsThroughTheSequence : Obligations.AutoLoopsThroughTheSequence := by
  intro s P ps hl program hP auto hq due nonempty
  have stands : s.StandsAt P .auto s.seq.step.toNat := ⟨hl, program, hP, auto, rfl⟩
  obtain ⟨p, ps, rfl⟩ := List.exists_cons_of_ne_nil nonempty
  obtain ⟨quietP, quietRest⟩ := List.forall_mem_cons.mp hq
  obtain ⟨dueP, dueRest⟩ := dueEvery_cons due
  obtain ⟨u, answers, plays⟩ := stands.passOn_due nofun quietP dueP
  obtain ⟨t, runs, final⟩ := plays.runOn_auto quietRest (dueRest u answers)
  rw [Nat.mod_add_mod, Nat.add_assoc, Nat.add_comm 1] at final
  exact ⟨t, runOn_cons.mpr ⟨u, answers, runs⟩, final.mode, final.step, final.lines⟩

/-- Settles O39: the command moves the sequencer by PSEL and PAUTO alone; otherwise the updates change the mode, which
they do under a Program only, by one of the two paths. -/
theorem modeChangesOnlyByItsEvents : Obligations.ModeChangesOnlyByItsEvents := by
  intro s t hr h changed
  rcases step_cases h with ⟨reset, -⟩ | ⟨-, legal, u, taken, rfl⟩
  · rw [hr] at reset; cases reset
  rcases State.takeCommand_samePosition taken with psel | pauto | ⟨prog, mode, -, deadline⟩
  · exact .inl psel
  · exact .inr (.inl pauto)
  rw [← prog, ← mode, ← deadline]
  rw [← mode] at changed
  by_cases sentinel : u.seq.curProg = 0
  · obtain ⟨-, seq⟩ := step_updates_clocks hr taken sentinel h
    exact absurd (by rw [seq]) changed
  obtain ⟨P, hP⟩ := State.activeProgram_of_legal legal
  have hP' : progRead u.cfg u.seq.curProg.toNat = some P := by rw [State.takeCommand_cfg taken, prog]; exact hP
  obtain ⟨manual, timed, waits⟩ := step_updates_program hr taken sentinel hP' h
  by_cases m : u.seq.mode = .manual
  · exact .inr (.inr (.inl ⟨sentinel, m, (manual m).mode_changes (m ▸ changed)⟩))
  by_cases due : u.seq.nextTick < s.ports.tick
  · obtain ⟨oneShot, ends, wraps⟩ := (timed m due).mode_changes m changed
    exact .inr (.inr (.inr ⟨sentinel, oneShot, ends, wraps, due⟩))
  · obtain ⟨seq, -⟩ := waits m due
    exact absurd (by rw [seq]) changed

end Sys2Proof.Machine

/-! PROOFS. What `cmd_ok` tells after a pass that took a command (R61, R121). -/

namespace Sys2Proof.Machine

section
variable {s t : State}

theorem State.syncClocks_cmdOk (s : State) (deadline : Tick) : (s.syncClocks deadline).cmdOk = s.cmdOk := by
  unfold State.syncClocks
  split <;> rfl

/-! ### The commands that are accepted -/

theorem execOset_accepts {ch : BitVec 8} {v : BitVec 16} (inBank : ch.toNat < 4) (h : execOset ch v s = .next t) :
    t.cmdOk = true := by
  cases (execOset_of_unit (unitOf_of_lt inBank)).symm.trans h
  rfl

theorem execOrev_accepts {ch : BitVec 8} (inBank : ch.toNat < 4) (h : execOrev ch s = .next t) :
    t.cmdOk = true := by
  cases (execOrev_of_unit (unitOf_of_lt inBank)).symm.trans h
  rfl

theorem execCfreq_accepts {c : BitVec 8} {f : BitVec 16} (inBank : c.toNat < 2) (hf : f ≠ 0)
    (h : execCfreq c f s = .next t) : t.cmdOk = true := by
  cases (execCfreq_of_unit (unitOf_of_lt inBank) hf).symm.trans h
  rfl

theorem execCauto_accepts {c : BitVec 8} (inBank : c.toNat < 2) (h : execCauto c s = .next t) :
    t.cmdOk = true := by
  cases (execCauto_of_unit (unitOf_of_lt inBank)).symm.trans h
  rfl

theorem execPsel_accepts {n : BitVec 16} {P : ProgEntry} (hP : progRead s.cfg n.toNat = some P)
    (h : execPsel n s = .next t) : t.cmdOk = true := by
  cases (execPsel_of_entry hP).symm.trans h
  rfl

/-- PFREQ without an active entry does not answer, so one that does is accepted (R111). -/
theorem execPfreq_accepts {f : BitVec 16} (hf : f ≠ 0) (h : execPfreq f s = .next t) : t.cmdOk = true := by
  cases hP : s.activeProgram with
  | some P => cases (execPfreq_of_entry hf hP).symm.trans h; rfl
  | none => cases (execPfreq_of_no_entry hf hP).symm.trans h

/-- A well-formed command is accepted but for an index or a frequency out of range: its unit exists (R121). -/
theorem exec_accepts_or {i : Instr} (hwf : i.wf = true) (h : exec i s = .next t) :
    t.cmdOk = true ∨ (∃ n, i = .psel n ∧ progRead s.cfg n.toNat = none) ∨ (∃ c, i = .cfreq c 0) ∨ i = .pfreq 0 := by
  cases i with
  | oset ch v => exact .inl (execOset_accepts (of_decide_eq_true hwf) h)
  | orev ch => exact .inl (execOrev_accepts (of_decide_eq_true hwf) h)
  | cauto c => exact .inl (execCauto_accepts (of_decide_eq_true hwf) h)
  | psel n =>
    cases hP : progRead s.cfg n.toNat with
    | some P => exact .inl (execPsel_accepts hP h)
    | none => exact .inr (.inl ⟨n, rfl, hP⟩)
  | cfreq c f =>
    by_cases hf : f = 0
    · exact .inr (.inr (.inl ⟨c, by rw [hf]⟩))
    · exact .inl (execCfreq_accepts (of_decide_eq_true hwf) hf h)
  | pfreq f =>
    by_cases hf : f = 0
    · exact .inr (.inr (.inr (by rw [hf])))
    · exact .inl (execPfreq_accepts hf h)
  | csync => cases h; exact .inl (State.syncClocks_cmdOk s.accept _)
  | csynco => cases h; exact .inl (State.syncClocks_cmdOk s.accept _)
  | nop => cases h; exact .inl rfl
  | pauto => cases h; exact .inl rfl
  | iack => cases h; exact .inl rfl

/-! ### The pass -/

/-- The causes of a refusal are R121's list and nothing else. -/
theorem refusedCommand_iff :
    refusedCommand s = true ↔
      (∃ e, decode s.ports.cmd = .error e) ∨
        (∃ n, decode s.ports.cmd = .ok (.psel n) ∧ progRead s.cfg n.toNat = none) ∨
        (∃ c, decode s.ports.cmd = .ok (.cfreq c 0)) ∨ decode s.ports.cmd = .ok (.pfreq 0) := by
  refine ⟨refusedCommand_cases, ?_⟩
  unfold refusedCommand
  rintro (⟨e, hd⟩ | ⟨n, hd, noEntry⟩ | ⟨c, hd⟩ | hd)
  · rw [hd]
  · rw [hd]; exact Option.isNone_iff_eq_none.mpr noEntry
  · rw [hd]; rfl
  · rw [hd]; rfl

/-- A presented command leaves `cmd_ok` at 0 exactly when it is refused (R61, R64). -/
theorem State.takeCommand_cmdOk_eq_false_iff (hv : s.ports.cmdValid = true) (taken : s.takeCommand = .next t) :
    t.cmdOk = false ↔ refusedCommand s = true := by
  constructor
  · intro zero
    rw [refusedCommand_iff]
    cases hd : decode s.ports.cmd with
    | error e => exact .inl ⟨e, rfl⟩
    | ok i =>
      obtain ⟨hwf, -⟩ := decode_eq_ok_iff.mp hd
      rcases exec_accepts_or hwf ((State.takeCommand_of_decode hv hd).symm.trans taken) with
        accepted | ⟨n, rfl, noEntry⟩ | ⟨c, rfl⟩ | rfl
      · cases zero.symm.trans accepted
      · exact .inr (.inl ⟨n, rfl, noEntry⟩)
      · exact .inr (.inr (.inl ⟨c, rfl⟩))
      · exact .inr (.inr (.inr rfl))
  · intro refused
    cases (State.takeCommand_of_refusedCommand hv refused).symm.trans taken
    rfl

end

/-- Settles O10: the updates keep `cmd_ok` as the command part left it, and that part refuses for R121's causes only. -/
theorem cmdOkTellsRefusal : Obligations.CmdOkTellsRefusal := by
  intro s t hr hv h
  rcases step_cases h with ⟨reset, -⟩ | ⟨-, -, u, taken, rfl⟩
  · rw [hr] at reset; cases reset
  · rw [State.nextEdge_cmdOk, State.updates_cmdOk, State.takeCommand_cmdOk_eq_false_iff hv taken, refusedCommand_iff]
    simp only [progRead_eq_none]

end Sys2Proof.Machine

/-! PROOFS. What reset leaves: the reset values, from whatever state, and they have the invariant (R26, R135). -/

namespace Sys2Proof.Machine

/-- Settles O11: the pass is `Reset(now)` and the next inputs, which are no registers. -/
theorem resetPassLeavesResetValues : Obligations.ResetPassLeavesResetValues := by
  intro s hr
  refine ⟨_, step_of_rst hr, ?cfg, fun i => ?btn, fun i => ?clk, fun ch => ?out, ?inp, ?seq, ?cmdOk⟩
  case cfg => rw [State.nextEdge_cfg]; rfl
  case btn => rw [State.nextEdge_btn]; fin_cases i <;> rfl
  case clk => rw [State.nextEdge_clk]; fin_cases i <;> rfl
  case out => rw [State.nextEdge_out]; fin_cases ch <;> rfl
  case inp => rw [State.nextEdge_inp]; rfl
  case seq => rw [State.nextEdge_seq]; rfl
  case cmdOk => rw [State.nextEdge_cmdOk]; rfl

/-- Settles O12: with the free `T0` and parameters, `Reset(now)` writes the registers of `State.reset`. -/
theorem resetStateIsAResetPass : Obligations.ResetStateIsAResetPass := by
  intro s hr tick cfg
  have performs : s.resetPass =
      State.afterReset Config.platform Config.initialTick s.ports s.upcoming s.envIndex := by
    rw [State.resetPass, State.now_eq, tick, cfg]
  refine ⟨_, step_of_rst hr, ?_⟩
  rw [performs]
  simp only [State.nextEdge_cfg, State.nextEdge_btn, State.nextEdge_clk, State.nextEdge_out, State.nextEdge_inp,
    State.nextEdge_seq, State.nextEdge_cmdOk]
  rfl

/-- Settles O53: `State.reset` is one of the states after reset, and they all have the invariant. -/
theorem resetHasTheInvariant : Obligations.ResetHasTheInvariant :=
  ⟨State.afterReset_inv _ _ _ _ _, State.afterReset_inv⟩

end Sys2Proof.Machine

/-! SUPPORT. A pass in which no deadline has passed (R133, R147): each machine waits; a machine that a command re-armed
to `now` waits too; and passes and runs answer in legal states. -/

namespace Sys2Proof.Machine

section
variable {s t : State} {P : ProgEntry}

/-! ### The Clocks and the sequencer wait -/

/-- Without a flip of its Button and with its deadline not passed, a Clock stays in either mode (R75). -/
theorem clockUpdate_of_no_event {now : Tick} {b : Button} {c : Clock} (flag : b.stateChanged = false)
    (waits : ¬ c.nextTick < now) : clockUpdate now b c = c := by
  cases mode : c.mode with
  | manual => rw [clockUpdate_manual mode, flag]; rfl
  | auto => exact clockUpdate_waits mode waits

theorem risingEdge_of_no_flip {b : Button} (flag : b.stateChanged = false) : risingEdge b = false := by
  rw [risingEdge, flag]; rfl

/-- Without a flip of a Button and with its deadline not passed, the sequencer stays in every mode (R108, R109). -/
theorem State.seqUpdate_of_no_event (flags : ∀ i, (Two.get s.btn i).stateChanged = false)
    (waits : ¬ s.seq.nextTick < s.ports.tick) : s.seqUpdate P = s := by
  by_cases manual : s.seq.mode = .manual
  · have edge0 : risingEdge s.btn.u0 = false := risingEdge_of_no_flip (flags 0)
    have edge1 : risingEdge s.btn.u1 = false := risingEdge_of_no_flip (flags 1)
    rw [State.seqUpdate_of_manual P manual, State.seqManual_eq, edge0, edge1]
    rfl
  · rw [State.seqUpdate_of_timed P manual, State.seqTimed_waits waits]

/-- The Clock or sequencer part of a pass with no event (R107). -/
theorem State.updateLines_of_no_event (flags : ∀ i, (Two.get s.btn i).stateChanged = false)
    (clk : ∀ i, ¬ (Two.get s.clk i).nextTick < s.ports.tick) (seq : ¬ s.seq.nextTick < s.ports.tick) :
    s.updateLines = s := by
  unfold State.updateLines
  split
  next =>
    have clk0 : clockUpdate s.ports.tick s.btn.u0 s.clk.u0 = s.clk.u0 := clockUpdate_of_no_event (flags 0) (clk 0)
    have clk1 : clockUpdate s.ports.tick s.btn.u1 s.clk.u1 = s.clk.u1 := clockUpdate_of_no_event (flags 1) (clk 1)
    simp only [State.updateClock, State.setClk, State.now_eq, Two.get_zero, Two.get_one, Two.set_zero, Two.set_one,
      clk0, clk1]
  next =>
    split
    next => exact State.seqUpdate_of_no_event flags seq
    next => rfl

/-! ### A pass with nothing due -/

/-- With neither deadline passed the Buttons put their flags down (R70 (a)). -/
theorem State.afterButtons_of_nothing_due (btn : ∀ i, ¬ (Two.get s.btn i).nextTick < s.ports.tick) :
    s.afterButtons =
      { s with
        btn := ⟨{ s.btn.u0 with stateChanged := false }, { s.btn.u1 with stateChanged := false }⟩ } := by
  rw [State.afterButtons_eq]
  exact congrArg₂ (fun b0 b1 => ({ s with btn := ⟨b0, b1⟩ } : State)) (buttonUpdate_waits (btn 0))
    (buttonUpdate_waits (btn 1))

/-- With no deadline passed the updates of a pass are those of the Buttons (R147). -/
theorem State.updates_of_nothing_due (btn : ∀ i, ¬ (Two.get s.btn i).nextTick < s.ports.tick)
    (clk : ∀ i, ¬ (Two.get s.clk i).nextTick < s.ports.tick)
    (out : ∀ ch, ¬ (Four.get s.out ch).nextTick < s.ports.tick) (inp : ¬ s.inp.nextTick < s.ports.tick)
    (seq : ¬ s.seq.nextTick < s.ports.tick) : s.updates = s.afterButtons := by
  have flags : ∀ i, (Two.get s.afterButtons.btn i).stateChanged = false := by
    rw [State.afterButtons_of_nothing_due btn]
    intro i
    fin_cases i <;> rfl
  have lines : s.afterButtons.updateLines = s.afterButtons := State.updateLines_of_no_event flags clk seq
  rw [State.updates_eq, lines, inputUpdate_waits inp, outputUpdate_waits (o := s.out.u0) (out 0),
    outputUpdate_waits (o := s.out.u1) (out 1), outputUpdate_waits (o := s.out.u2) (out 2),
    outputUpdate_waits (o := s.out.u3) (out 3)]
  rfl

/-! ### A re-armed machine -/

/-- A presented command that decodes decides what the port makes of a channel. -/
theorem portOutput_of_decode {p : InPorts} {i : Instr} (hv : p.cmdValid = true) (hd : decode p.cmd = .ok i)
    (ch : Fin 4) (o : OutputChannel) : portOutput p ch o = commandOutput p.tick ch i o := by
  rw [portOutput, if_pos hv, hd]

theorem commandOutput_oset (now : Tick) (ch : Fin 4) (v : BitVec 16) (o : OutputChannel) :
    commandOutput now ch (.oset (BitVec.ofNat 8 ch.val) v) o = { outputRestart now o with data := v } :=
  if_pos (unitOf_ofNat (by omega) ch)

theorem commandOutput_orev (now : Tick) (ch : Fin 4) (o : OutputChannel) :
    commandOutput now ch (.orev (BitVec.ofNat 8 ch.val)) o = { outputRestart now o with reverse := !o.reverse } :=
  if_pos (unitOf_ofNat (by omega) ch)

/-- A channel that the command armed to `now` has after the pass what the command made of it (R147). -/
theorem step_out_of_armed {i : Instr} {ch : Fin 4} (hr : s.ports.rst = false) (hv : s.ports.cmdValid = true)
    (hd : decode s.ports.cmd = .ok i) (h : step s = .next t)
    (armed : (commandOutput s.ports.tick ch i (Four.get s.out ch)).nextTick = s.ports.tick) :
    Four.get t.out ch = commandOutput s.ports.tick ch i (Four.get s.out ch) := by
  rw [step_out hr h, portOutput_of_decode hv hd]
  exact outputUpdate_waits (by rw [armed]; exact BitVec.lt_irrefl _)

/-- The channel after the pass that takes an OSET for it (R86, R147). -/
theorem step_out_of_oset {ch : Fin 4} {v : BitVec 16} (hr : s.ports.rst = false) (hv : s.ports.cmdValid = true)
    (hd : decode s.ports.cmd = .ok (.oset (BitVec.ofNat 8 ch.val) v)) (h : step s = .next t) :
    Four.get t.out ch = { outputRestart s.ports.tick (Four.get s.out ch) with data := v } := by
  rw [step_out_of_armed hr hv hd h (by rw [commandOutput_oset]; rfl), commandOutput_oset]

/-- The channel after the pass that takes an OREV for it (R87, R147). -/
theorem step_out_of_orev {ch : Fin 4} (hr : s.ports.rst = false) (hv : s.ports.cmdValid = true)
    (hd : decode s.ports.cmd = .ok (.orev (BitVec.ofNat 8 ch.val))) (h : step s = .next t) :
    Four.get t.out ch =
      { outputRestart s.ports.tick (Four.get s.out ch) with reverse := !(Four.get s.out ch).reverse } := by
  rw [step_out_of_armed hr hv hd h (by rw [commandOutput_orev]; rfl), commandOutput_orev]

/-- A Manual Clock after the pass that takes a CAUTO for it under the sentinel: Auto, and no toggle (R78, R147). -/
theorem step_clk_of_cauto {k : Fin 2} (hr : s.ports.rst = false) (hv : s.ports.cmdValid = true)
    (hd : decode s.ports.cmd = .ok (.cauto (BitVec.ofNat 8 k.val))) (sentinel : s.seq.curProg = 0)
    (manual : (Two.get s.clk k).mode = .manual) (h : step s = .next t) :
    Two.get t.clk k = { Two.get s.clk k with mode := .auto, nextTick := s.ports.tick } := by
  have taken := (State.takeCommand_of_decode hv hd).trans (execCauto_of_unit (unitOf_ofNat (by omega) k))
  have updated := step_updates_clocks hr taken sentinel h
  have toggled : clockToggleAuto s.now (Two.get s.clk k) =
      { Two.get s.clk k with mode := .auto, nextTick := s.ports.tick } := by
    rw [clockToggleAuto, manual]; rfl
  rw [updated.clk k, State.setClk_clk, Two.get_set_self, toggled]
  exact clockUpdate_waits rfl (BitVec.lt_irrefl _)

/-- A Manual sequencer after the pass that takes a PAUTO under a Program: Auto, and no step (R112, R147). -/
theorem step_seq_of_pauto (hr : s.ports.rst = false) (hv : s.ports.cmdValid = true)
    (hd : decode s.ports.cmd = .ok .pauto) (program : s.seq.curProg ≠ 0) (manual : s.seq.mode = .manual)
    (h : step s = .next t) :
    t.seq = { s.seq with mode := .auto, nextTick := s.ports.tick } ∧ t.clk = s.clk := by
  obtain ⟨-, -, seqLegal⟩ := State.legal_iff.mp (legal_of_step hr h)
  obtain ⟨P, hP, -⟩ := seqLegal_iff.mp seqLegal
  have taken : s.takeCommand =
      .next (s.accept.setSeq { s.seq with mode := .auto, nextTick := s.ports.tick }) := by
    rw [State.takeCommand_of_decode hv hd, exec, execPauto, manual]; rfl
  exact (step_updates_program hr taken program hP h).waits nofun (BitVec.lt_irrefl _)

/-! ### Passes and runs that answer -/

/-- Whatever state a pass starts from, the state after it is legal. -/
theorem legal_after_step (h : step s = .next t) : t.legal = true := by
  have answering : s.ports.rst = true ∨ s.legal = true := by
    rcases step_cases h with ⟨reset, -⟩ | ⟨-, legal, -⟩
    · exact .inl reset
    · exact .inr legal
  obtain ⟨u, answers, legal⟩ := legalStatesAlwaysStep s answering
  cases answers.symm.trans h
  exact legal

/-- A quiet run from a legal state goes on to its end. -/
theorem traceOn_length {ps : List InPorts} (hs : s.legal = true) (hq : ∀ p ∈ ps, quiet p = true) :
    (traceOn ps s).length = ps.length := by
  induction ps generalizing s with
  | nil => rfl
  | cons p ps ih =>
    obtain ⟨quietP, quietRest⟩ := List.forall_mem_cons.mp hq
    obtain ⟨t, answers, legal, -⟩ := passOn_answers_out hs quietP 0
    rw [traceOn_cons_of_next answers, List.length_cons, List.length_cons, ih legal quietRest]

end

end Sys2Proof.Machine

/-! SUPPORT. The input pins in a pass that does not sample them (R149, I13). -/

namespace Sys2Proof.Machine

/-- The state with other levels on the Buttons' pins and on the data-in pin in its coming pass. -/
def State.withPins (s : State) (pins : Two Bool) (d : Bool) : State :=
  { s with ports := { s.ports with btnIn := pins, inData := d } }

section
variable {s t : State} {pins : Two Bool} {d : Bool}

/-! ### No command reads a pin -/

theorem execOset_withPins {c : BitVec 8} {v : BitVec 16} (h : execOset c v s = .next t) :
    execOset c v (s.withPins pins d) = .next (t.withPins pins d) := by
  cases hc : unitOf 4 c with
  | none => cases (execOset_of_no_unit v hc).symm.trans h; exact execOset_of_no_unit v hc
  | some k => cases (execOset_of_unit hc).symm.trans h; exact execOset_of_unit hc

theorem execOrev_withPins {c : BitVec 8} (h : execOrev c s = .next t) :
    execOrev c (s.withPins pins d) = .next (t.withPins pins d) := by
  cases hc : unitOf 4 c with
  | none => cases (execOrev_of_no_unit hc).symm.trans h; exact execOrev_of_no_unit hc
  | some k => cases (execOrev_of_unit hc).symm.trans h; exact execOrev_of_unit hc

theorem execPsel_withPins {n : BitVec 16} (h : execPsel n s = .next t) :
    execPsel n (s.withPins pins d) = .next (t.withPins pins d) := by
  cases hP : progRead s.cfg n.toNat with
  | none => cases (execPsel_of_no_entry hP).symm.trans h; exact execPsel_of_no_entry hP
  | some P => cases (execPsel_of_entry hP).symm.trans h; exact execPsel_of_entry hP

theorem execCfreq_withPins {c : BitVec 8} {f : BitVec 16} (h : execCfreq c f s = .next t) :
    execCfreq c f (s.withPins pins d) = .next (t.withPins pins d) := by
  by_cases hf : f = 0
  · subst hf
    cases (execCfreq_zero c).symm.trans h; exact execCfreq_zero c
  · cases hc : unitOf 2 c with
    | none => cases (execCfreq_of_no_unit f hc).symm.trans h; exact execCfreq_of_no_unit f hc
    | some i => cases (execCfreq_of_unit hc hf).symm.trans h; exact execCfreq_of_unit hc hf

theorem execPfreq_withPins {f : BitVec 16} (h : execPfreq f s = .next t) :
    execPfreq f (s.withPins pins d) = .next (t.withPins pins d) := by
  by_cases hf : f = 0
  · subst hf
    cases execPfreq_zero.symm.trans h; exact execPfreq_zero
  · cases hP : s.activeProgram with
    | none => cases (execPfreq_of_no_entry hf hP).symm.trans h
    | some P => cases (execPfreq_of_entry hf hP).symm.trans h; exact execPfreq_of_entry hf hP

theorem execCauto_withPins {c : BitVec 8} (h : execCauto c s = .next t) :
    execCauto c (s.withPins pins d) = .next (t.withPins pins d) := by
  cases hc : unitOf 2 c with
  | none => cases (execCauto_of_no_unit hc).symm.trans h; exact execCauto_of_no_unit hc
  | some i => cases (execCauto_of_unit hc).symm.trans h; exact execCauto_of_unit hc

theorem State.syncClocks_withPins (s : State) (deadline : Tick) :
    (s.withPins pins d).syncClocks deadline = (s.syncClocks deadline).withPins pins d := by
  by_cases sentinel : s.seq.curProg = 0
  · rw [State.syncClocks_of_sentinel deadline sentinel]; exact State.syncClocks_of_sentinel deadline sentinel
  · rw [State.syncClocks_of_program deadline sentinel]; exact State.syncClocks_of_program deadline sentinel

theorem exec_withPins {i : Instr} (h : exec i s = .next t) :
    exec i (s.withPins pins d) = .next (t.withPins pins d) := by
  cases i with
  | oset c v => exact execOset_withPins h
  | orev c => exact execOrev_withPins h
  | psel n => exact execPsel_withPins h
  | cfreq c f => exact execCfreq_withPins h
  | pfreq f => exact execPfreq_withPins h
  | cauto c => exact execCauto_withPins h
  | csync => cases h; exact congrArg _ (State.syncClocks_withPins s.accept _)
  | csynco => cases h; exact congrArg _ (State.syncClocks_withPins s.accept _)
  | nop => cases h; rfl
  | pauto => cases h; rfl
  | iack => cases h; rfl

theorem State.takeCommand_withPins (h : s.takeCommand = .next t) :
    (s.withPins pins d).takeCommand = .next (t.withPins pins d) := by
  cases hv : s.ports.cmdValid with
  | false =>
    cases (State.takeCommand_of_no_command hv).symm.trans h
    exact State.takeCommand_of_no_command hv
  | true =>
    cases hd : decode s.ports.cmd with
    | error e =>
      cases (State.takeCommand_of_error hv hd).symm.trans h
      exact State.takeCommand_of_error hv hd
    | ok i =>
      have executed := exec_withPins (pins := pins) (d := d) ((State.takeCommand_of_decode hv hd).symm.trans h)
      exact (State.takeCommand_of_decode (s := s.withPins pins d) hv hd).trans executed

/-! ### The updates read a pin to sample it -/

theorem buttonUpdate_of_unsampled {v : BitVec 32} {now : Tick} {pin pin' : Bool} {b : Button}
    (same : b.nextTick < now → pin' = pin) : buttonUpdate v now pin' b = buttonUpdate v now pin b := by
  by_cases due : b.nextTick < now
  · rw [same due]
  · rw [buttonUpdate_waits due, buttonUpdate_waits due]

/-- The data-in pin is read by the SerialShiftOff action alone (R95 (e)). -/
theorem inputAction_of_unsampled {pin pin' : Bool} {i : InputChannel} (same : i.st = .serialShiftOff → pin' = pin) :
    inputAction pin' i = inputAction pin i := by
  cases st : i.st with
  | idle => rw [inputAction_idle pin' st, inputAction_idle pin st]
  | loadingData => rw [inputAction_loadingData pin' st, inputAction_loadingData pin st]
  | serialShiftOff => rw [same st]
  | shiftClockOn => rw [inputAction_shiftClockOn pin' st, inputAction_shiftClockOn pin st]

theorem inputUpdate_of_unsampled {v : BitVec 32} {now : Tick} {pin pin' : Bool} {i : InputChannel}
    (same : i.st = .serialShiftOff → i.nextTick < now → pin' = pin) :
    inputUpdate v now pin' i = inputUpdate v now pin i := by
  by_cases due : i.nextTick < now
  · rw [inputUpdate_acts due, inputUpdate_acts due, inputAction_of_unsampled fun st => same st due]
  · rw [inputUpdate_waits due, inputUpdate_waits due]

theorem State.updateLines_withPins (s : State) :
    (s.withPins pins d).updateLines = s.updateLines.withPins pins d := by
  obtain ⟨c, q, framed⟩ := s.updateLines_frame
  obtain ⟨c', q', framed'⟩ := (s.withPins pins d).updateLines_frame
  have lines := State.updateLines_congr (s := s) (u := s.withPins pins d) rfl rfl rfl rfl rfl
  rw [framed, framed'] at lines
  obtain ⟨rfl, rfl⟩ : c' = c ∧ q' = q := lines
  rw [framed, framed']
  rfl

/-- The updates keep other pin levels apart from the registers when no machine that samples finds its own pin
changed. -/
theorem State.updates_withPins
    (buttons : ∀ i, (Two.get s.btn i).nextTick < s.ports.tick → Two.get pins i = Two.get s.ports.btnIn i)
    (dataIn : s.inp.st = .serialShiftOff → s.inp.nextTick < s.ports.tick → d = s.ports.inData) :
    (s.withPins pins d).updates = s.updates.withPins pins d := by
  have afterButtons : (s.withPins pins d).afterButtons = s.afterButtons.withPins pins d := by
    have btn0 := buttonUpdate_of_unsampled (v := s.cfg.buttonUpdateInterval) (buttons 0)
    have btn1 := buttonUpdate_of_unsampled (v := s.cfg.buttonUpdateInterval) (buttons 1)
    rw [State.afterButtons_eq, State.afterButtons_eq]
    exact congrArg₂ (fun b0 b1 => ({ s with btn := ⟨b0, b1⟩ } : State).withPins pins d) btn0 btn1
  have received := inputUpdate_of_unsampled (v := s.cfg.inputTickInterval) dataIn
  rw [State.updates_eq, State.updates_eq, afterButtons, State.updateLines_withPins]
  simp only [State.withPins, received]

/-- What the command port makes of the receiver decides neither its state nor its deadline (R96). -/
theorem portInput_eq_setDataChanged (p : InPorts) (r : InputChannel) :
    ∃ b, portInput p r = { r with dataChanged := b } := by
  have command : ∀ i, ∃ b, commandInput i r = { r with dataChanged := b } := by
    intro i
    cases i with
    | iack => exact ⟨false, rfl⟩
    | _ => exact ⟨r.dataChanged, rfl⟩
  unfold portInput
  split
  next =>
    split
    next i _ => exact command i
    next => exact ⟨r.dataChanged, rfl⟩
  next => exact ⟨r.dataChanged, rfl⟩

end

end Sys2Proof.Machine

/-! PROOFS. Re-armed machines, pre-empted transmissions, passes with nothing due, and pins that are not sampled
(R133, R138, R147, R149). -/

namespace Sys2Proof.Machine

/-- Settles O25: each of the four commands arms its machine to `now`, and no deadline at `now` has passed. -/
theorem rearmedMachinesWait : Obligations.RearmedMachinesWait := by
  intro s t hr hv h
  exact ⟨fun k v hd => step_out_of_oset hr hv hd h, fun k hd => step_out_of_orev hr hv hd h,
    fun k hd sentinel manual => step_clk_of_cauto hr hv hd sentinel manual h,
    fun hd program manual => step_seq_of_pauto hr hv hd program manual h⟩

/-- Settles O42: the OSET leaves the pins as they are, so the enable pin is still high when slot 0 starts, and the three
passes are the three actions of slot 0. -/
theorem preemptedTransmissionHasNoFirstEdge : Obligations.PreemptedTransmissionHasNoFirstEdge := by
  intro s u ch v p p1 p2 p3 _ high hr hv hd answers hq due
  have restarted : Four.get u.out ch = { outputRestart p.tick (Four.get s.out ch) with data := v } :=
    step_out_of_oset (s := { s with ports := p }) hr hv hd answers
  have stillHigh : (Four.get u.out ch).enablePin = true := by rw [restarted]; exact high
  have legal : u.legal = true := legal_after_step answers
  have starts : (Four.get u.out ch).StartsSlot 0 (Four.get u.out ch) := by
    rw [restarted]
    exact { st := rfl, bit := rfl, last := rfl, data := rfl, reverse := rfl, enable := rfl }
  have shown : u.ShowsChannel ch (Four.get u.out ch) := ⟨_, rfl⟩
  obtain ⟨trace, -⟩ := shown.runOn_due legal hq due
  obtain ⟨a, b, c, states⟩ := List.length_eq_three.mp (traceOn_length legal hq)
  rw [states] at trace
  obtain ⟨_, ⟨⟩, showsA⟩ := trace 0 (by simp)
  obtain ⟨_, ⟨⟩, showsB⟩ := trace 1 (by simp)
  obtain ⟨_, ⟨⟩, showsC⟩ := trace 2 (by simp)
  obtain ⟨dataPin, enableA, enableB, enableC⟩ := starts.pins (by omega) showsA showsB showsC
  refine ⟨stillHigh, a, b, c, states, enableA.trans stillHigh, ?_, enableB, enableC⟩
  rw [dataPin a List.mem_cons_self, restarted]
  rfl

/-- Settles O45: every machine waits. -/
theorem nothingDueNothingChanges : Obligations.NothingDueNothingChanges := by
  intro s hq hl due out inp seq
  obtain ⟨hr, hv⟩ := quiet_iff.mp hq
  obtain ⟨btn, clk⟩ := forall_and.mp due
  rw [step_of_no_command hr hv hl, State.updates_of_nothing_due btn clk out inp seq,
    State.afterButtons_of_nothing_due btn]

/-- Settles O46: under reset no machine samples; otherwise the command reads no pin, and it leaves the deadlines of the
Buttons and the receiver's deadline and state. -/
theorem unsampledPinsAreIgnored : Obligations.UnsampledPinsAreIgnored := by
  intro s pins d buttons dataIn
  change step (s.withPins pins d) = step s
  cases hr : s.ports.rst with
  | true =>
    rw [step_of_rst hr, step_of_rst (s := s.withPins pins d) hr]
    exact congrArg _ (State.nextEdge_congr_ports s.resetPass _)
  | false =>
    cases hl : s.legal with
    | false => rw [step_of_not_legal hr hl, step_of_not_legal (s := s.withPins pins d) hr hl]
    | true =>
      obtain ⟨u, taken, -⟩ := State.takeCommand_answers_legal hl
      have frame := State.CommandFrame.takeCommand taken
      obtain ⟨b, received⟩ := portInput_eq_setDataChanged s.ports s.inp
      have inp : u.inp = { s.inp with dataChanged := b } := (State.takeCommand_channels taken).2.trans received
      have updated : (u.withPins pins d).updates = u.updates.withPins pins d :=
        State.updates_withPins (by rwa [frame.btn, frame.ports]) (by rwa [inp, frame.ports])
      rw [step_of_next hr hl taken, step_of_next (s := s.withPins pins d) hr hl (State.takeCommand_withPins taken),
        updated]
      exact congrArg _ (State.nextEdge_congr_ports u.updates _)

end Sys2Proof.Machine
